-- ==== Sys2Proof/Word.lean ====
section
/-! DEFINITION. The word types of the OG40 and their plainest arithmetic. -/

namespace Sys2Proof

/-- One byte of exchange memory. -/
abbrev Byte := BitVec 8

/-- One word of the host port, and the width of the 16-bit counts. -/
abbrev Half := BitVec 16

/-- A 48-bit millisecond count: the mine clock and the run time (R176). Both wrap. -/
abbrev Clock := BitVec 48

/-- Milliseconds from `since` to `now`, on a clock that wraps. -/
def elapsed (now since : Clock) : Nat := (now - since).toNat

/-- The `n` bytes of a value, least significant first (R3, byte order). -/
def leBytes : Nat → Nat → List Byte
  | 0, _ => []
  | n + 1, v => BitVec.ofNat 8 v :: leBytes n (v / 256)

/-- The number a list of bytes spells, least significant byte first. -/
def ofLeBytes : List Byte → Nat
  | [] => 0
  | b :: bs => b.toNat + 256 * ofLeBytes bs

end Sys2Proof
end

