-- ==== Sys2Proof/Config.lean ====
section
/-! DEFINITION. The fixed numbers of the OG40: region addresses, capacities, times and limits that the spec states as
constants. Nothing here is left open by the spec, so no constant is opaque. -/

namespace Sys2Proof.Config

/-! Exchange memory regions (Table 1-1). -/
def summaryBase : Nat := 0x0000
def summarySize : Nat := 256
def causeBase : Nat := 0x0100
def logControlBase : Nat := 0x0200
def boardBase : Nat := 0x0400
def slotSize : Nat := 64
def slotCount : Nat := 32
def logBase : Nat := 0x0C00
def logEntrySize : Nat := 16
def logEntries : Nat := 256
def headBase : Nat := 0x1C00
def headSize : Nat := 32
def channelBase : Nat := 0x2400
def channelSize : Nat := 48
def channelCount : Nat := 96
def zoneBase : Nat := 0x3600
def zoneSize : Nat := 96
def zoneCount : Nat := 32
def rosterBase : Nat := 0x4200
def rosterSize : Nat := 32
def rosterCount : Nat := 256
def vehicleBase : Nat := 0x6200
def vehicleSize : Nat := 32
def vehicleCount : Nat := 24
def encounterBase : Nat := 0x6500
def encounterSize : Nat := 16
def encounterCount : Nat := 48
def refugeBase : Nat := 0x6800
def refugeSize : Nat := 64
def refugeCount : Nat := 4
def escapeBase : Nat := 0x6900
def escapeSize : Nat := 8
def downlinkBase : Nat := 0x6A00
def downlinkSize : Nat := 64
def downlinkLists : Nat := 24
def patternBase : Nat := 0x7000
def patternSize : Nat := 8
def inFlightBase : Nat := 0x7100
def inFlightSize : Nat := 16
def inFlightMax : Nat := 8
def registerBase : Nat := 0xFFF0

/-! The five registers (Table 1-3). -/
def identAddr : Nat := 0xFFF0
def stateAddr : Nat := 0xFFF2
def noticeAddr : Nat := 0xFFF4
def noticeEnableAddr : Nat := 0xFFF6
def controlAddr : Nat := 0xFFF8

/-- IDENT: part code 0x40, layout version 1 (R7). -/
def ident : Nat := 0x4001
def layoutVersion : Nat := 1

/-- The group bits of NOTICE and the enables of NOTICE_ENABLE: bits 6..0 (R7). -/
def groupMask : Half := 0x007F#16

/-! Times in milliseconds. -/
/-- Scan timer period (R10). -/
def scanPeriod : Nat := 20
/-- Summary clock refresh period (R5). -/
def refreshPeriod : Nat := 10
/-- Response window of the loop (R24). -/
def responseWindow : Nat := 4
/-- Self-check step timer (R102). -/
def stepTime : Nat := 10000
/-- Recovery time after a bump test (R97). -/
def recoveryTime : Nat := 120000
/-- The page timeout that 0 stands for (R116), in seconds. -/
def pageDefaultTimeout : Nat := 120

/-! Limits of the units. -/
/-- The strength margin of a move (R110). -/
def strengthMargin : Nat := 6
/-- Outcomes a quality history holds (R38). -/
def historyLength : Nat := 16
/-- Non-GOOD outcomes at which POOR_LINK is set (R38). -/
def poorLinkCount : Nat := 4
/-- Entries of one downlink list (R120). -/
def downlinkMax : Nat := 8
/-- Entries carried by one reader POLL (R122). -/
def carriedMax : Nat := 4
/-- Continuation polls of one reader in one round (R30). -/
def continuationMax : Nat := 3
/-- Addresses a roll call examines in one round (R44). -/
def rollCallPerRound : Nat := 8
/-- Rounds of an address assignment (R47). -/
def assignRounds : Nat := 3
/-- Samples of a calibration and the spread they may have (R99). -/
def calSamples : Nat := 8
def calSpread : Nat := 8
/-- Least distance of span count over zero count (R50). -/
def minSpan : Nat := 64
/-- Speed from which a vehicle is moving (R129), km/h. -/
def movingSpeed : Nat := 3
def maxSpeed : Nat := 40
def maxOnboard : Nat := 500
/-- Polls without an echo that log VEHICLE_UNACKED (R134). -/
def unackedPolls : Nat := 3
/-- Difference of door and tag occupancy that is a mismatch (R146). -/
def occupancyTolerance : Nat := 2
/-- Largest serial number (R42). -/
def maxSerial : Nat := 0xFFFFFFFE

/-- Steps the hand-offs of one command may take: more than any command can use, a bound that makes them a function. -/
def handOffFuel : Nat := 2048

end Sys2Proof.Config
end

