-- ==== Sys2Proof/Syntax.lean ====
section
/-! DEFINITION. The commands of the OG40: one constructor of `Instr` for each row of the opcode table, with the row's
operands, and the operand structures. -/

namespace Sys2Proof

/-- The kinds of head, coded by position (R25, R37). -/
inductive HeadKind where
  | gas | reader | relay | refuge | sounder
  deriving DecidableEq, Repr

/-! ### Replies from the loop (Table 2-1, Table 2-2) -/

/-- Address, echoed toggle and status flags of a reply (Table 2-1). -/
structure ReplyHead where
  address : Nat
  toggle : Bool
  rejected : Bool
  localFault : Bool
  failsafe : Bool
  warmup : Bool
  more : Bool
  deriving DecidableEq, Repr

/-- One channel's raw count and channel flags in a reply (Table 2-2). -/
structure RawReading where
  raw : Nat
  warmup : Bool
  sensor : Bool
  deriving DecidableEq, Repr

/-- A GAS reply: the configured slots in slot order, then the self-check report. -/
structure GasReply where
  head : ReplyHead
  slots : List RawReading
  step : Nat
  verdict : Nat
  value : Nat
  deriving DecidableEq, Repr

/-- The vehicle fields of a vehicle tag sighting. -/
structure VehicleFields where
  speed : Nat
  onboard : Nat
  echo : Nat
  deriving DecidableEq, Repr

/-- One sighting of one tag by a reader (R105). `call` is the line code 0..3; `ack` is absent for 0xFF. -/
structure Sighting where
  tag : Nat
  strength : Nat
  batteryLow : Bool
  motionless : Bool
  call : Nat
  seq : Nat
  ack : Option Nat
  vehicle : Option VehicleFields
  deriving DecidableEq, Repr

structure ReaderReply where
  head : ReplyHead
  sightings : List Sighting
  deriving DecidableEq, Repr

/-- A RELAY reply: for each configured circuit, whether its feedback is CLOSED. -/
structure RelayReply where
  head : ReplyHead
  closed : List Bool
  deriving DecidableEq, Repr

structure RefugeReply where
  head : ReplyHead
  door : Nat
  inCount : Nat
  outCount : Nat
  battery : Nat
  pull : Nat
  o2 : RawReading
  co : RawReading
  deriving DecidableEq, Repr

structure SounderReply where
  head : ReplyHead
  pulled : Bool
  deriving DecidableEq, Repr

/-- A reply to an IDENTIFY: the head's own kind and serial. -/
structure IdentifyReply where
  head : ReplyHead
  kind : HeadKind
  serial : Nat
  deriving DecidableEq, Repr

/-! ### Arguments of the orders with many of them -/

/-- SET POLICY (R180); a field of all ones keeps its present value. -/
structure PolicyArgs where
  pollPeriod : Nat
  tripCeiling : Nat
  blindGrace : Nat
  lostTime : Nat
  onboardLimit : Nat
  zeroTolerance : Nat
  evacPolicy : Nat
  askWindow : Nat
  musterDeadline : Nat
  patEvacuate : Nat
  patDrill : Nat
  patTrip : Nat
  patAlarm : Nat
  patWarn : Nat
  patFault : Nat
  deriving DecidableEq, Repr

/-- SET HEAD (R42). -/
structure HeadArgs where
  address : Nat
  kind : Nat
  position : Nat
  count : Nat
  window : Nat
  serial : Nat
  deriving DecidableEq, Repr

/-- SET CHANNEL (R51). -/
structure ChannelArgs where
  index : Nat
  op : Nat
  kind : Nat
  head : Nat
  slot : Nat
  zone : Nat
  zero : Nat
  span : Nat
  gas : Nat
  l1 : Nat
  l2 : Nat
  l3 : Nat
  hyst : Nat
  window : Nat
  deriving DecidableEq, Repr

/-- SET ZONE (R73): each list is its count and the bytes of its places, those beyond the count included. -/
structure ZoneArgs where
  zone : Nat
  op : Nat
  kind : Nat
  powered : Nat
  vote : Nat
  nNeighbours : Nat
  neighbours : List Nat
  nReaders : Nat
  readers : List Nat
  nRelays : Nat
  relays : List (Nat × Nat)
  nSounders : Nat
  sounders : List Nat
  deriving DecidableEq, Repr

/-- SET REFUGE (R142). -/
structure RefugeArgs where
  index : Nat
  op : Nat
  zone : Nat
  panel : Nat
  capacity : Nat
  o2 : Nat
  co : Nat
  deriving DecidableEq, Repr

/-- SET VEHICLE (R126). -/
structure VehicleArgs where
  index : Nat
  op : Nat
  tag : Nat
  number : Nat
  drive : Nat
  deriving DecidableEq, Repr

/-- SET PATTERN (R167). -/
structure PatternArgs where
  index : Nat
  onTime : Nat
  offTime : Nat
  duty : Nat
  repeats : Nat
  deriving DecidableEq, Repr

/-- SET INPUT (R174). -/
structure InputArgs where
  input : Nat
  mode : Nat
  polarity : Nat
  enable : Nat
  zone : Nat
  clear : Nat
  deriving DecidableEq, Repr

/-- The commands: one constructor per row of the opcode table, in the table's order. An order's constructor carries the
board slot it is taken from and the arguments the Order Unit copies from that slot (R11). -/
inductive Instr where
  | hostMemoryRead (addr : Half)
  | hostMemoryWrite (addr data : Half) (lo hi : Bool)
  | handOverWrite (slot : Nat) (data : Half) (lo hi : Bool)
  | writtenCountRead
  | takenCountWrite (high : Bool) (data : Half) (lo hi : Bool)
  | noticeWrite (data : Half) (lo hi : Bool)
  | noticeEnableWrite (data : Half) (lo hi : Bool)
  | scan
  | restart
  | registerWrite (addr data : Half) (lo hi : Bool)
  | coldReset
  | inputPinChange (input : Nat) (level : Bool)
  | enterSetup
  | scanTimerExpiry
  | scanVisit
  | setPolicy (slot : Nat) (a : PolicyArgs)
  | setHead (slot : Nat) (a : HeadArgs)
  | retireHead (slot address : Nat)
  | setChannel (slot : Nat) (a : ChannelArgs)
  | setZone (slot : Nat) (a : ZoneArgs)
  | setRefuge (slot : Nat) (a : RefugeArgs)
  | setRosterEntry (slot index op tag person : Nat)
  | setVehicle (slot : Nat) (a : VehicleArgs)
  | setPattern (slot : Nat) (a : PatternArgs)
  | setInput (slot : Nat) (a : InputArgs)
  | startDistrict (slot : Nat)
  | rollCall (slot : Nat)
  | assignAddress (slot serial target : Nat)
  | clearTrip (slot zone check : Nat)
  | bumpTest (slot channel a b window : Nat)
  | selfCheck (slot head skip : Nat)
  | calibrate (slot channel mode gas : Nat)
  | page (slot entry message ack timeout : Nat)
  | answerCall (slot entry answer : Nat)
  | commandVehicle (slot vehicle command : Nat)
  | blockZone (slot zone : Nat)
  | openZone (slot zone : Nat)
  | startEvacuation (slot drill reason : Nat)
  | declineEvacuation (slot check : Nat)
  | standDown (slot check : Nat)
  | markAccounted (slot entry : Nat)
  | setClock (slot value : Nat)
  | cancel (slot target : Nat)
  | roundTimerExpiry
  | pollSend
  | identifySend
  | assignSend
  | responseWindowExpiry
  | garbledReply
  | gasReply (r : GasReply)
  | readerReply (r : ReaderReply)
  | relayReply (r : RelayReply)
  | refugeReply (r : RefugeReply)
  | sounderReply (r : SounderReply)
  | identifyReply (r : IdentifyReply)
  | roundEnd
  | blindGraceExpiry (zone : Nat)
  | bumpWindowExpiry (channel : Nat)
  | stepTimerExpiry (head : Nat)
  | recoveryExpiry (channel : Nat)
  | pageTimeout (entry : Nat)
  | lostTimerExpiry (entry : Nat)
  | vehicleLostExpiry (vehicle : Nat)
  | askWindowExpiry
  | musterDeadlineExpiry
  | playPhaseExpiry
  | summaryClockRefresh
  | replyBegun
  | markerArrival (good : Bool)
  deriving DecidableEq, Repr

end Sys2Proof
end

