-- ==== Sys2Proof/Decode.lean ====
section
/-! DEFINITION. The reading of a command from bits. No row of the opcode table carries bits: the OG40 takes its commands as
accesses, replies, pins and expiries, and its orders as bytes of the order board (Sys2Proof/Machine/Operands.lean reads
those). -/

namespace Sys2Proof

/-- The command a word of `nbits` bits spells: none, as no row of the table gives bits. -/
def decodeTableWord (_nbits _w : Nat) : Option Instr := none

end Sys2Proof
end

