-- ==== Sys2Proof/Machine/State.lean ====
section
/-! DEFINITION. The state of the OG40 as plain data, block by block (Figure 1-1), its outcomes' reasons, and the state
after a cold reset. -/

namespace Sys2Proof.Machine

/-! ### Named values -/

/-- Phases of operation, coded as in STATE (Table 1-3, R177). -/
inductive Phase where
  | boot | setup | running | halted
  deriving DecidableEq, Repr

/-- Supply modes, from fastest to slowest (R31, R175). -/
inductive SupplyMode where
  | mains | battery | reserve
  deriving DecidableEq, Repr

/-- Fatal codes of STATE (Table 1-3). -/
inductive FatalCode where
  | none | internalCheck | exchangeFault
  deriving DecidableEq, Repr

/-- The 16 causes, in counter order (Table 1-9). -/
inductive Cause where
  | orderEnded | orderOrphaned | channelLevel | zoneGas | call | tagState | vehicleState | encounter
  | refugeState | evacuation | escapeTable | headLink | loopBreak | eventLogged | logFull | supply
  deriving DecidableEq, Repr

/-- Result codes of orders, in code order (Table 1-7). -/
inductive OrderResult where
  | ok | okClamped | unknownOrder | badArgument | badCheck | badSetup | notNow | busy | full | noTarget
  | stillGas | tooLate | cancelled | timeout | linkLost | failed | aborted | unstable
  deriving DecidableEq, Repr

/-- Target kinds of long orders (R14). -/
inductive TargetKind where
  | channel | head | roster | loop
  deriving DecidableEq, Repr

/-- The two ends of the field loop. -/
inductive LoopEnd where
  | a | b
  deriving DecidableEq, Repr

/-- Link states of a head, in code order (R37). -/
inductive LinkState where
  | unconfigured | unknown | online | suspect | offline | clash | mismatch
  deriving DecidableEq, Repr

/-- Outcomes of a poll, in code order (R35, R37). -/
inductive PollOutcome where
  | good | otherEnd | bad | missed
  deriving DecidableEq, Repr

/-- Roll-call findings, in code order (R37). -/
inductive Finding where
  | none | found | clash | mismatch
  deriving DecidableEq, Repr

inductive LoopState where
  | whole | broken
  deriving DecidableEq, Repr

/-- Channel kinds, in code order (Table 3-1). -/
inductive ChannelKind where
  | ch4 | co | o2 | airvel
  deriving DecidableEq, Repr

/-- Channel states, in code order (R68). -/
inductive ChannelState where
  | normal | settling | bump | recovery | cal | selfcheck | fault
  deriving DecidableEq, Repr

/-- Fault causes, in code order (R68). -/
inductive FaultCause where
  | link | warmup | signal | driftLow | sensor | slowRecovery
  deriving DecidableEq, Repr

/-- Zone kinds, in code order (R71). -/
inductive ZoneKind where
  | roadway | face | exit | refuge
  deriving DecidableEq, Repr

inductive TripState where
  | normal | blindGrace | tripped
  deriving DecidableEq, Repr

/-- Trip causes, in code order (Table 4-1). -/
inductive TripCause where
  | gas | blind | external | retained
  deriving DecidableEq, Repr

/-- Zone conditions, in code order, which is also their rank from lowest to highest (R71, R88, R173). -/
inductive ZoneCondition where
  | normal | fault | warn | alarm | trip | drill | evacuate
  deriving DecidableEq, Repr

/-- Miner states, in code order (R124). -/
inductive MinerState where
  | unseen | present | lost | atRefuge | out
  deriving DecidableEq, Repr

/-- Call codes a roster entry can hold, in the record's order and in rank from lowest (R107, R114). -/
inductive CallCode where
  | ok | callMe | help
  deriving DecidableEq, Repr

inductive MusterState where
  | notRequired | required | safe
  deriving DecidableEq, Repr

/-- Vehicle states, in code order (R140). -/
inductive VehicleState where
  | unseen | present | lost | out
  deriving DecidableEq, Repr

inductive DriveKind where
  | diesel | electric
  deriving DecidableEq, Repr

/-- Vehicle commands, in code and strength order (R130). -/
inductive Command where
  | none | slow | stop | withdraw
  deriving DecidableEq, Repr

inductive DoorState where
  | closed | open | fault
  deriving DecidableEq, Repr

inductive BatteryState where
  | ok | low | fault
  deriving DecidableEq, Repr

/-- States of the evacuation machine, coded as in STATE (Table 1-3, R153). -/
inductive EvacState where
  | quiet | asking | alerting | mustering | accounted | overdue
  deriving DecidableEq, Repr

/-- Evacuation policy, in code order (R180). -/
inductive EvacPolicy where
  | off | ask | auto
  deriving DecidableEq, Repr

/-- The district overlay the Evacuation Unit gives the Zone Unit (R88, R153). -/
inductive Overlay where
  | none | evacuate | drill
  deriving DecidableEq, Repr

/-- Downlink kinds, from lowest priority: the code is the position plus one (Table 6-2). -/
inductive DownKind where
  | callTaken | callAnswer | page | vehicleNear | vehicleCommand | withdraw | evacuate
  deriving DecidableEq, Repr

/-- The tag a condition stands for: a roster entry or a vehicle record (R118). -/
inductive TagRef where
  | miner (i : Nat)
  | vehicle (i : Nat)
  deriving DecidableEq, Repr

/-- Faults of a relay circuit (R84). -/
inductive CircuitFault where
  | none | openFault | welded
  deriving DecidableEq, Repr

/-- Last reset cause (R179). -/
inductive ResetCause where
  | cold | warm
  deriving DecidableEq, Repr

/-! ### Tables and memory -/

/-- A table: pairs of index and record, indices strictly rising. An index that is not listed holds no record. -/
abbrev Tbl (α : Type) := List (Nat × α)

/-- Byte memory: addresses strictly rising, no listed byte 0; an unlisted address reads 0. -/
abbrev Memory := List Host.Cell

/-! ### Exchange Port -/

/-- One entry of the event log (Table 1-10). -/
structure LogEntry where
  clock : Clock
  kind : Nat
  cls : Nat
  index : Nat
  a : Half
  b : Half
  seq : Half
  deriving DecidableEq, Repr

/-- The Exchange Port: the order board's bytes, version counts by record address, cause counters, NOTICE logic and event
log (R1 to R7, R19 to R23). `badBytes` are the addresses whose stored check bit does not match the byte (R6). -/
structure Port where
  board : Memory
  versions : Tbl Half
  causes : Tbl Half
  notice : Half
  enable : Half
  written : BitVec 32
  capture : Option Half
  taken : BitVec 32
  held : Option Half
  fullEpisode : Bool
  log : Tbl LogEntry
  badBytes : List Nat
  hostData : Half
  shownMine : Clock
  shownRun : Clock
  refreshAt : Clock
  deriving DecidableEq, Repr

/-! ### Order Unit -/

/-- One entry of the in-flight list (R14). -/
structure InFlight where
  slot : Nat
  take : Half
  code : Nat
  target : TargetKind
  index : Nat
  start : Clock
  deriving DecidableEq, Repr

/-- The Order Unit (R10, R11, R14). `next` and `left` are the progress of the running scan; `scanAt` is the last expiry of
the scan timer. -/
structure Orders where
  scanPos : Nat
  scanRunning : Bool
  scanPending : Bool
  next : Nat
  left : Nat
  scanAt : Clock
  takes : Half
  inFlight : List InFlight
  deriving DecidableEq, Repr

/-! ### Loop Controller -/

/-- The shown record of one address (R37). -/
structure Head where
  configured : Bool
  kind : HeadKind
  position : Nat
  count : Nat
  window : Nat
  link : LinkState
  poorLink : Bool
  preferred : LoopEnd
  missed : Nat
  nonGood : Nat
  newest : Option PollOutcome
  finding : Finding
  localFault : Bool
  serial : Option Nat
  identified : Option Nat
  failsafes : Nat
  lastReply : Option Nat
  deriving DecidableEq, Repr

/-- What the part holds of a head and does not show: toggle (R27), quality history, oldest first (R38), clash serials
(R45), and the effective keepalive window last sent (R41). -/
structure HeadInner where
  toggle : Bool
  history : List PollOutcome
  clashSerials : List Nat
  lastWindow : Nat
  deriving DecidableEq, Repr

/-- One message waiting in a reader's list (R120). `ended` is set when its condition ends: the entry then stays until the
list's next refill (R118). -/
structure DownEntry where
  ref : TagRef
  tag : Nat
  kind : DownKind
  code : Nat
  target : Nat
  next : Nat
  created : Clock
  count : Nat
  sent : Bool
  ended : Bool
  lastReader : Option Nat
  deriving DecidableEq, Repr

/-- The payload of a frame sent by the part (Table 2-2). -/
inductive Payload where
  | empty
  | gas (window step : Nat)
  | reader (window : Nat) (entries : List DownEntry)
  | relay (window : Nat) (hold : List Bool)
  | refuge (window o2 o2Point co coPoint : Nat)
  | sounder (window onTime offTime duty repeats : Nat)
  | assign (serial address : Nat)
  deriving DecidableEq, Repr

/-- Frame kinds, in code order (Table 2-1). -/
inductive FrameKind where
  | poll | identify | assign | marker
  deriving DecidableEq, Repr

/-- A frame sent by the part (R25). -/
structure Frame where
  kind : FrameKind
  address : Nat
  toggle : Bool
  payload : Payload
  deriving DecidableEq, Repr

/-- Why an exchange is made (R30, R33, R44, R47). -/
inductive Purpose where
  | marker | due | continuation (n : Nat) | interposed | rollCall | assignFrame | assignCheck
  deriving DecidableEq, Repr

/-- The exchange in progress (R24, R35): the frame, whether its head was ONLINE when it was sent (R40), the end of the
present try, whether it is the retry, whether a reply has begun or a try was garbled, whether end B heard the MARKER, and
whether its head was retired meanwhile (R40). -/
structure Exchange where
  frame : Frame
  purpose : Purpose
  online : Bool
  side : LoopEnd
  retry : Bool
  begun : Bool
  garbled : Bool
  heard : Bool
  abandoned : Bool
  sentAt : Clock
  deriving DecidableEq, Repr

/-- The running round (R30): heads still to be taken, the windows mode it began with (R32), whether it is an overrun round
(R29), whether its MARKER waits for the loop, the highest position reached on A and the lowest on B (R36), the heads whose
due poll was a missed round (R39), the roll-call examinations left, and the ASSIGN frames and check still owed (R47). -/
structure Round where
  due : List Nat
  windows : SupplyMode
  overrun : Bool
  markerOwed : Bool
  reachedA : Nat
  reachedB : Nat
  missed : List Nat
  rollLeft : Nat
  assignEnds : List LoopEnd
  assignCheck : Bool
  deriving DecidableEq, Repr

/-- How one try of a roll call ended (R44). -/
inductive TryResult where
  | good (kind : HeadKind) (serial : Nat)
  | garbled
  | silent
  deriving DecidableEq, Repr

/-- A roll call (R44): automatic or by order, begun or waiting for its round, the address examined and the tries made. -/
structure RollCall where
  automatic : Bool
  begun : Bool
  address : Nat
  tries : List TryResult
  deriving DecidableEq, Repr

/-- An address assignment (R47). -/
structure Assignment where
  serial : Nat
  target : Nat
  begun : Bool
  rounds : Nat
  deriving DecidableEq, Repr

/-- The Loop Controller (R24 to R48). -/
structure Loop where
  heads : Tbl Head
  inner : Tbl HeadInner
  rounds : BitVec 32
  overruns : Nat
  overrunRun : Bool
  roundAt : Clock
  roundOwed : Bool
  round : Option Round
  state : LoopState
  span : Option (Nat × Nat)
  rates : SupplyMode
  windows : SupplyMode
  plan : Nat
  lastWindows : Option SupplyMode
  exchange : Option Exchange
  continuation : Option (Nat × Nat)
  marks : List Nat
  rollCall : Option RollCall
  assignment : Option Assignment
  deriving DecidableEq, Repr

/-! ### Air Evaluator -/

/-- The shown record of a channel in use (R50). -/
structure Channel where
  kind : ChannelKind
  head : Nat
  slot : Nat
  zone : Option Nat
  zero : Nat
  span : Nat
  gas : Nat
  l1 : Nat
  l2 : Nat
  l3 : Nat
  hyst : Nat
  window : Nat
  state : ChannelState
  cause : Option FaultCause
  lastRaw : Option Nat
  v : Nat
  mean : Option Nat
  level : Nat
  overRange : Bool
  n : Nat
  changed : Nat
  deriving DecidableEq, Repr

/-- The Air Evaluator: channel records and, not shown, their smoothing windows, oldest value first (R50, R62). -/
structure Air where
  channels : Tbl Channel
  windows : Tbl (List Nat)
  deriving DecidableEq, Repr

/-! ### Zone Unit -/

/-- The four aggregates of one channel kind in one zone (R75). -/
structure Aggregate where
  configured : Nat
  healthy : Nat
  highest : Nat
  atL3 : Nat
  deriving DecidableEq, Repr

/-- A zone record (R71). The trip latch stands in the retained block. -/
structure Zone where
  inUse : Bool
  kind : ZoneKind
  powered : Bool
  vote : Nat
  neighbours : List Nat
  readers : List Nat
  relays : List (Nat × Nat)
  sounders : List Nat
  blocked : Bool
  ch4 : Aggregate
  co : Aggregate
  o2 : Aggregate
  airvel : Aggregate
  mobile : Bool
  covered : Bool
  trip : TripState
  cause : Option TripCause
  evacGas : Bool
  passable : Bool
  closed : Bool
  relayFault : Bool
  occupants : Nat
  vehicles : Nat
  condition : ZoneCondition
  changed : Nat
  deriving DecidableEq, Repr

/-- A running blind grace timer: its start and length in milliseconds (R80). -/
structure Grace where
  start : Clock
  length : Nat
  deriving DecidableEq, Repr

/-- Feedback judgement of one relay circuit (R84): the mismatch count, whether the mismatches counted were open ones, and
the fault. -/
structure Circuit where
  head : Nat
  circuit : Nat
  count : Nat
  openSort : Bool
  fault : CircuitFault
  deriving DecidableEq, Repr

/-- The Zone Unit (R71 to R90). -/
structure ZoneUnit where
  zones : Tbl Zone
  grace : Tbl Grace
  circuits : List Circuit
  deriving DecidableEq, Repr

/-! ### Test Unit -/

/-- A bump test record (R91); times are run times. -/
structure BumpRec where
  a : Nat
  b : Nat
  start : Clock
  length : Nat
  timeAtA : Option Clock
  extreme : Nat
  highest : Nat
  deriving DecidableEq, Repr

/-- A calibration record (R91): SPAN or ZERO, the span gas value, and the samples, oldest first. -/
structure CalRec where
  span : Bool
  gas : Nat
  samples : List Nat
  deriving DecidableEq, Repr

/-- A self check record (R91, R102): the skip mask, whether the first POLL after the take has been formed, the current
step 1..4, its timer's start, and the values of the steps reported. -/
structure CheckRec where
  skip : Nat
  primed : Bool
  step : Option Nat
  timer : Option Clock
  values : Tbl Nat
  deriving DecidableEq, Repr

/-- The Test Unit: records by channel or head (R91); a recovery is its start. -/
structure Tests where
  bumps : Tbl BumpRec
  cals : Tbl CalRec
  checks : Tbl CheckRec
  recoveries : Tbl Clock
  deriving DecidableEq, Repr

/-! ### People Unit -/

/-- A roster entry in use (R107). `lastSeen` keeps all 48 bits for the lost timer; the record shows the low 32. -/
structure Miner where
  tag : Nat
  person : Nat
  state : MinerState
  zone : Option Nat
  lastReader : Option Nat
  strength : Nat
  lastSeen : Option Clock
  call : Option CallCode
  callTime : Option Nat
  lastSeq : Option Nat
  pageTake : Option Nat
  pageCode : Option Nat
  pageAck : Option Bool
  muster : MusterState
  accounted : Bool
  assist : Bool
  batteryLow : Bool
  motionless : Bool
  deriving DecidableEq, Repr

/-- The page record of a page in flight (R116, R117); `length` is the timeout in milliseconds. -/
structure PageRec where
  take : Half
  message : Nat
  ack : Bool
  start : Clock
  length : Nat
  deliveries : Nat
  reader : Option Nat
  deriving DecidableEq, Repr

/-- A standing condition of a tag (R118). -/
structure Condition where
  ref : TagRef
  kind : DownKind
  code : Nat
  target : Nat
  next : Nat
  created : Clock
  acked : Bool
  deriving DecidableEq, Repr

/-- The downlink list of the reader in one position (R120). -/
structure DownList where
  reader : Nat
  entries : List DownEntry
  deriving DecidableEq, Repr

/-- The People Unit (R105 to R124): roster, page records by entry, conditions, downlink lists by position, and the zones it
holds as tripped with their causes (R111). -/
structure People where
  roster : Tbl Miner
  pages : Tbl PageRec
  conditions : List Condition
  lists : Tbl DownList
  tripped : Tbl TripCause
  deriving DecidableEq, Repr

/-! ### Vehicle Unit -/

/-- A vehicle entry in use (R125). -/
structure Vehicle where
  tag : Nat
  number : Nat
  drive : DriveKind
  state : VehicleState
  zone : Option Nat
  lastReader : Option Nat
  strength : Nat
  lastSeen : Option Clock
  speed : Nat
  moving : Bool
  onboard : Nat
  batteryLow : Bool
  host : Command
  zoneCmd : Command
  encounterCmd : Command
  evacCmd : Command
  onboardCmd : Command
  crowdedCmd : Command
  effective : Command
  acked : Command
  crowded : Bool
  unacked : Nat
  deriving DecidableEq, Repr

/-- One entry of the encounter list (R136). -/
structure Encounter where
  vehicle : Nat
  miner : Nat
  zone : Nat
  created : Nat
  miss : Nat
  deriving DecidableEq, Repr

/-- The Vehicle Unit (R125 to R140). -/
structure Haul where
  vehicles : Tbl Vehicle
  encounters : List Encounter
  tripped : List Nat
  deriving DecidableEq, Repr

/-! ### Route Unit -/

/-- A refuge record in use (R141); `reasons` has bit n set for reason n of R145. -/
structure Refuge where
  zone : Nat
  panel : Nat
  capacity : Nat
  door : DoorState
  inCount : Nat
  outCount : Nat
  doorOcc : Nat
  tagOcc : Nat
  o2 : Nat
  co : Nat
  battery : BatteryState
  pulled : Bool
  usable : Bool
  reasons : Nat
  mismatch : Bool
  deriving DecidableEq, Repr

/-- An escape table entry (R148): `way` is distance, next zone and target zone, absent when UNREACHABLE. -/
structure Escape where
  way : Option (Nat × Nat × Nat)
  badAir : Bool
  deriving DecidableEq, Repr

/-- The Route Unit (R141 to R152). A zone that `escape` does not list is UNREACHABLE with IN_BAD_AIR clear. -/
structure Routes where
  refuges : Tbl Refuge
  escape : Tbl Escape
  generation : Half
  deriving DecidableEq, Repr

/-! ### Evacuation Unit -/

/-- The Evacuation Unit (R153). `declined` are the zones whose declined flag is set, `pulled` the SOUNDER heads whose last
pull value is PULLED; the timers are their starts and lengths in milliseconds. -/
structure Evac where
  state : EvacState
  drill : Bool
  askingZone : Option Nat
  askTimer : Option Grace
  askedAt : Clock
  deadline : Option Grace
  deadlinePassed : Bool
  roundAtEntry : Bool
  roundEnds : Nat
  declined : List Nat
  pulled : List Nat
  required : Nat
  safe : Nat
  unaccounted : Nat
  assist : Nat
  overlay : Overlay
  vehicleFlag : Bool
  deriving DecidableEq, Repr

/-! ### Alarm Output Unit -/

/-- One pattern (R166): times in units of 10 ms, the duty code and the repeat count. -/
structure Pattern where
  onTime : Nat
  offTime : Nat
  duty : Nat
  repeats : Nat
  deriving DecidableEq, Repr

/-- A zone's sounder choice, absent for silence, and its sequence bit (R168). -/
structure Choice where
  pattern : Option Nat
  seq : Bool
  deriving DecidableEq, Repr

/-- Where the district play stands (R171). -/
inductive PlayStage where
  | on | off | stopped
  deriving DecidableEq, Repr

/-- The district play of OUT1 and OUT2 (R171): the pattern index, absent for silence; stage, cycles, start of the stage. -/
structure Play where
  pattern : Option Nat
  stage : PlayStage
  cycles : Nat
  since : Clock
  deriving DecidableEq, Repr

/-- The Alarm Output Unit (R166 to R173); `out3` and `out4` are set while the contact is closed. -/
structure Alarms where
  patterns : Tbl Pattern
  choices : Tbl Choice
  district : ZoneCondition
  play : Play
  out3 : Bool
  out4 : Bool
  deriving DecidableEq, Repr

/-! ### Supply and Clock Unit -/

/-- One local input (R174): the pin, its configuration, latch and status. -/
structure Input where
  raw : Bool
  edge : Bool
  activeLow : Bool
  enabled : Bool
  latch : Bool
  status : Bool
  deriving DecidableEq, Repr

/-- The policy fields of SET POLICY (R180). -/
structure Policy where
  pollPeriod : Nat
  tripCeiling : Nat
  blindGrace : Nat
  lostTime : Nat
  onboardLimit : Nat
  zeroTolerance : Nat
  evacPolicy : EvacPolicy
  askWindow : Nat
  musterDeadline : Nat
  patEvacuate : Nat
  patDrill : Nat
  patTrip : Nat
  patAlarm : Nat
  patWarn : Nat
  patFault : Nat
  deriving DecidableEq, Repr

/-- The retained block (R179): the zones whose trip latch is set, in rising order; the evacuation flags; the last reset
cause and the warm reset count; and whether its check bits match. -/
structure Retained where
  latches : List Nat
  evacActive : Bool
  drill : Bool
  cause : ResetCause
  warmCount : Nat
  checkBad : Bool
  deriving DecidableEq, Repr

/-- The Supply and Clock Unit (R174 to R181). `internalBad` is set while a check bit of the state held inside the blocks
does not match (R177). -/
structure Supply where
  in1 : Input
  in2 : Input
  in3 : Input
  in4 : Input
  in4Zone : Option Nat
  mode : SupplyMode
  mineClock : Clock
  runTime : Clock
  phase : Phase
  fatal : FatalCode
  policy : Policy
  retained : Retained
  internalBad : Bool
  deriving DecidableEq, Repr

/-! ### Hand-offs within one step (the model's own) -/

/-- A hand-off to the Evacuation Unit that waits for the end of the event's own work (R148, R154). -/
inductive EvacTask where
  /-- A PULL trigger with its event's subject class and index. -/
  | pull (cls index : Nat)
  /-- A rise of a zone's evac-gas flag. -/
  | gasRise (zone : Nat)
  /-- A fall of a zone's evac-gas flag. -/
  | gasFall (zone : Nat)
  /-- The People Unit's report of a roster entry: a change of its state or zone, and a taken HELP press (R106, R159). -/
  | muster (entry : Nat) (moved help : Bool)
  deriving DecidableEq, Repr

/-- A test in flight, named by its target. -/
inductive TestRef where
  | bump (channel : Nat)
  | cal (channel : Nat)
  | check (head : Nat)
  deriving DecidableEq, Repr

/-- An event offered to the log and not yet appended (R21): kind, subject class, subject index and values. -/
structure News where
  kind : Nat
  cls : Nat
  index : Nat
  a : Nat
  b : Nat
  deriving DecidableEq, Repr

/-- An end report of a long order that the Order Unit has still to handle (R15): the order by its code and target, with
result, qualifier and result values. -/
structure EndReport where
  code : Nat
  target : TargetKind
  index : Nat
  result : OrderResult
  qualifier : Nat
  values : List Byte
  deriving DecidableEq, Repr

/-- A unit that writes some fields of a record whose other fields another unit writes: the Evacuation Unit in a roster entry
(R107), the People Unit and the Vehicle Unit in a zone record (R71). -/
inductive Guest where
  | evacuation | people | vehicle
  deriving DecidableEq, Repr

/-- What waits in the step in progress: a recompute asked for (R148), hand-offs to the Evacuation Unit (R154, R159), cover
aborts (R93, with the zone and kind found short), the refuges to be judged with their records before the event (R145, R152),
the roster entries to be evaluated for encounters, each with whether it left use or was restarted (R106, R135, R137), end
reports (R15), the addresses of the records whose changes the event gathers into one update (R4), those that a guest of a record
updates on its own (R71, R107), the causes that are raised once for each event and record (R140, R152, R165), the events to be appended to the log, in their order, and after them the
People Unit's own, which it logs when its hand-offs are made (R106). Empty between commands. -/
structure Work where
  recompute : Bool
  evac : List EvacTask
  aborts : List (TestRef × Nat × ChannelKind)
  refuges : Tbl (Option Refuge)
  meets : List (Nat × Bool)
  ends : List EndReport
  dirty : List Nat
  guests : List (Guest × Nat)
  raised : List (Cause × Nat)
  news : List News
  late : List News
  deriving DecidableEq, Repr

/-- The whole state of the block: its twelve units, the hand-offs of the step in progress, and the queue of commands that
are waiting, first in, first out. -/
structure State where
  port : Port
  orders : Orders
  loop : Loop
  air : Air
  zone : ZoneUnit
  tests : Tests
  people : People
  haul : Haul
  route : Routes
  evac : Evac
  alarm : Alarms
  supply : Supply
  work : Work
  pending : List Instr
  deriving DecidableEq, Repr

/-- Faults of the machine. There is none: the spec gives every command an effect in every state, and the part's own fatal
codes are state (R177). -/
inductive Fault where
  deriving DecidableEq, Repr

/-- Refusals of the machine. -/
inductive Refusal where
  /-- Raised by a dispatch arm of a command that has no meaning yet; safe. No arm raises it. -/
  | notModelled (mnemonic : String)
  deriving DecidableEq, Repr

/-! ### Values at reset -/

/-- The Exchange Port after a reset (R4, R7, R19, R21, R22, R23). DESIGN CHOICE, log entry 4. -/
def Port.reset : Port :=
  { board := [], versions := [], causes := [], notice := 0, enable := 0, written := 0, capture := none, taken := 0,
    held := none, fullEpisode := false, log := [], badBytes := [], hostData := 0, shownMine := 0, shownRun := 0,
    refreshAt := 0 }

/-- The Order Unit after a reset (R10, R11, R14). -/
def Orders.reset : Orders :=
  { scanPos := 31, scanRunning := false, scanPending := false, next := 0, left := 0, scanAt := 0, takes := 0,
    inFlight := [] }

/-- The Loop Controller after a reset (R34, R37). -/
def Loop.reset : Loop :=
  { heads := [], inner := [], rounds := 0, overruns := 0, overrunRun := false, roundAt := 0, roundOwed := false,
    round := none, state := .whole, span := none, rates := .mains, windows := .mains, plan := 0, lastWindows := none,
    exchange := none, continuation := none, marks := [], rollCall := none, assignment := none }

/-- The Evacuation Unit after a reset (R153); the ASKING entry time and the flags of the ALERTING entry and of the deadline:
DESIGN CHOICE, log entry 5. -/
def Evac.reset : Evac :=
  { state := .quiet, drill := false, askingZone := none, askTimer := none, askedAt := 0, deadline := none,
    deadlinePassed := false, roundAtEntry := false, roundEnds := 0, declined := [], pulled := [], required := 0,
    safe := 0, unaccounted := 0, assist := 0, overlay := .none, vehicleFlag := false }

/-- The pattern table after a reset (Table 10-1). -/
def patternsReset : Tbl Pattern :=
  [(0, ⟨100, 100, 3, 0⟩), (1, ⟨100, 100, 2, 0⟩), (2, ⟨50, 50, 3, 0⟩), (3, ⟨25, 25, 3, 0⟩),
   (4, ⟨20, 180, 2, 5⟩), (5, ⟨10, 250, 0, 3⟩), (6, ⟨255, 0, 3, 0⟩), (7, ⟨50, 150, 1, 0⟩)]

/-- The Alarm Output Unit after a reset (R166, R168, R170, R172). -/
def Alarms.reset : Alarms :=
  { patterns := patternsReset, choices := [], district := .normal,
    play := { pattern := none, stage := .stopped, cycles := 0, since := 0 }, out3 := false, out4 := false }

/-- The policy defaults (R180). -/
def Policy.default : Policy :=
  { pollPeriod := 1000, tripCeiling := 125, blindGrace := 60, lostTime := 60, onboardLimit := 100, zeroTolerance := 40,
    evacPolicy := .ask, askWindow := 60, musterDeadline := 30, patEvacuate := 0, patDrill := 1, patTrip := 2,
    patAlarm := 3, patWarn := 4, patFault := 5 }

/-- The retained block after a cold reset (R179). -/
def Retained.cold : Retained :=
  { latches := [], evacActive := false, drill := false, cause := .cold, warmCount := 0, checkBad := false }

/-- An input with its reset configuration (the table of R174) and its pin at the given level. -/
def Input.reset (raw edge enabled : Bool) : Input :=
  { raw := raw, edge := edge, activeLow := false, enabled := enabled, latch := false, status := false }

/-- No hand-off waits. -/
def Work.none : Work :=
  { recompute := false, evac := [], aborts := [], refuges := [], meets := [], ends := [], dirty := [], guests := [],
    raised := [], news := [], late := [] }

/-- The state a reset leaves as BOOT is entered (R177, R179): every block at its reset values, with the retained block,
the mine clock, the four pins and the queue given. -/
def State.boot (r : Retained) (mine : Clock) (p1 p2 p3 p4 : Bool) (queue : List Instr) : State :=
  { port := Port.reset
    orders := Orders.reset
    loop := Loop.reset
    air := { channels := [], windows := [] }
    zone := { zones := [], grace := [], circuits := [] }
    tests := { bumps := [], cals := [], checks := [], recoveries := [] }
    people := { roster := [], pages := [], conditions := [], lists := [], tripped := [] }
    haul := { vehicles := [], encounters := [], tripped := [] }
    route := { refuges := [], escape := [], generation := 0 }
    evac := Evac.reset
    alarm := Alarms.reset
    supply :=
      { in1 := Input.reset p1 true true, in2 := Input.reset p2 false true, in3 := Input.reset p3 false true,
        in4 := Input.reset p4 false false, in4Zone := none, mode := .mains, mineClock := mine, runTime := 0,
        phase := .boot, fatal := .none, policy := Policy.default, retained := r, internalBad := false }
    work := Work.none
    pending := queue }

/-- The machine right after power-on: a cold reset (R179), pins low. DESIGN CHOICE, log entry 5. -/
def State.reset : State := State.boot Retained.cold 0 false false false false []

end Sys2Proof.Machine
end

