-- ==== Sys2Proof/Machine/Ops.lean ====
section
/-! DEFINITION. The shared operations over the state: tables and byte memory, version counts, record updates, causes and
the event log. -/

namespace Sys2Proof.Machine

open Sys2Proof.Config

/-! ### Tables and memory -/

/-- The record an index holds, if any. -/
def lookupAt {α : Type} : Tbl α → Nat → Option α
  | [], _ => none
  | (k, a) :: t, i => if k = i then some a else lookupAt t i

/-- Puts a record at an index, keeping the indices rising. -/
def storeAt {α : Type} : Tbl α → Nat → α → Tbl α
  | [], i, x => [(i, x)]
  | (k, a) :: t, i, x =>
    if i < k then (i, x) :: (k, a) :: t
    else if i = k then (i, x) :: t
    else (k, a) :: storeAt t i x

/-- Takes an index out of a table. -/
def dropAt {α : Type} : Tbl α → Nat → Tbl α
  | [], _ => []
  | (k, a) :: t, i => if k = i then t else (k, a) :: dropAt t i

/-- The indices of a table, rising. -/
def keysOf {α : Type} (t : Tbl α) : List Nat := t.map Prod.fst

/-- What an unlisted address of the order board reads as: BOOT writes every byte with its reset value (R177), and the
board's are 0. -/
def unlistedByte : Byte := 0

/-- One byte of memory. -/
def readMem (m : Memory) (a : Nat) : Byte := (lookupAt m a).getD unlistedByte

/-- Writes one byte of memory in canonical form. -/
def writeMem (m : Memory) (a : Nat) (b : Byte) : Memory := if b = unlistedByte then dropAt m a else storeAt m a b

/-- Writes bytes from an address upward. -/
def writeBytes : Memory → Nat → List Byte → Memory
  | m, _, [] => m
  | m, a, b :: bs => writeBytes (writeMem m a b) (a + 1) bs

/-- Every index of the table lies above the bound given, and the indices rise. -/
def risingFrom {α : Type} : Nat → Tbl α → Bool
  | _, [] => true
  | lo, (k, _) :: t => decide (lo ≤ k) && risingFrom (k + 1) t

/-- The canonical form of memory: addresses strictly rising, and no entry equal to an unlisted byte. -/
def Memory.wf (m : Memory) : Bool := risingFrom 0 m && m.all fun c => !decide (c.2 = unlistedByte)

/-- Adds a number to a rising list of numbers without repeats. -/
def insertNat : List Nat → Nat → List Nat
  | [], x => [x]
  | y :: ys, x => if x < y then x :: y :: ys else if x = y then y :: ys else y :: insertNat ys x

/-- Takes a number out of a list. -/
def removeNat (l : List Nat) (x : Nat) : List Nat := l.filter fun y => !decide (y = x)

/-! ### Clocks and phase -/

/-- Run time now (R176). -/
def State.now (s : State) : Clock := s.supply.runTime

/-- The mine clock's low 32 bits, as record change times hold it (R3). -/
def State.stamp (s : State) : Nat := s.supply.mineClock.toNat % 2 ^ 32

/-- SETUP or RUNNING: the phases in which the blocks act (R29, R70, R123, R139, R152, R177). -/
def State.active (s : State) : Bool :=
  match s.supply.phase with
  | .setup | .running => true
  | .boot | .halted => false

/-- A check bit of the state held inside the blocks does not match: of the blocks' own state or of the retained block
(R177). -/
def State.insideBad (s : State) : Bool := s.supply.internalBad || s.supply.retained.checkBad

def State.running (s : State) : Bool := decide (s.supply.phase = .running)

/-- A timer of the given start and length in milliseconds has run out. DESIGN CHOICE, log entry 12. -/
def State.due (s : State) (start : Clock) (ms : Nat) : Bool := decide (ms ≤ elapsed s.now start)

/-! ### Version counts (R4) -/

/-- The version count of the record at an address. -/
def State.version (s : State) (addr : Nat) : Half := (lookupAt s.port.versions addr).getD 0

/-- One record update: the version count is made odd and even again, so it rises by two (R4). DESIGN CHOICE, log entry 6. -/
def State.bumpNow (s : State) (addr : Nat) : State :=
  { s with port.versions := storeAt s.port.versions addr (s.version addr + 2#16) }

/-- A record changes: all its changes in this event are gathered into one update at the event's end (R4). DEDUCED, log
entry 22. -/
def State.bump (s : State) (addr : Nat) : State := { s with work.dirty := insertNat s.work.dirty addr }

/-- A guest of a record changes it: all its changes in this event are gathered into one update of the guest's own, made at the
event's end beside that of the record's other writer (R4, R71, R107). DEDUCED, log entry 22. -/
def State.bumpGuest (s : State) (g : Guest) (addr : Nat) : State :=
  if s.work.guests.contains (g, addr) then s else { s with work.guests := s.work.guests ++ [(g, addr)] }

/-- The summary block is among the records the event updates (R5). -/
def State.bumpSummary (s : State) : State := s.bump summaryBase

/-- One record update of each list position whose entry changed (R14, R136). -/
def State.bumpPositions {α : Type} [DecidableEq α] (base size : Nat) : List α → List α → Nat → State → State
  | [], [], _, s => s
  | _ :: xs, [], i, s => State.bumpPositions base size xs [] (i + 1) (s.bump (base + i * size))
  | [], _ :: ys, i, s => State.bumpPositions base size [] ys (i + 1) (s.bump (base + i * size))
  | x :: xs, y :: ys, i, s =>
    State.bumpPositions base size xs ys (i + 1) (if x = y then s else s.bump (base + i * size))

/-! ### Causes and the event log (R19 to R23) -/

/-- The group bit of a cause (Table 1-9). -/
def Cause.group : Cause → Nat
  | .orderEnded | .orderOrphaned => 0
  | .channelLevel | .zoneGas => 1
  | .call | .tagState => 2
  | .vehicleState | .encounter => 3
  | .refugeState | .evacuation | .escapeTable => 4
  | .headLink | .loopBreak => 5
  | .eventLogged | .logFull | .supply => 6

/-- A cause counter (R19). -/
def State.causeCount (s : State) (c : Cause) : Half := (lookupAt s.port.causes c.ctorIdx).getD 0

/-- Raises a cause: its counter rises by one, wrapping, and its group bit in NOTICE is set (R19, R20). -/
def State.raise (s : State) (c : Cause) : State :=
  { s with
    port.causes := storeAt s.port.causes c.ctorIdx (s.causeCount c + 1#16)
    port.notice := s.port.notice ||| BitVec.ofNat 16 (2 ^ c.group) }

/-- Raises a cause if a condition holds. -/
def State.raiseIf (s : State) (b : Bool) (c : Cause) : State := if b then s.raise c else s

/-- Raises a cause once in an event for one record, named by its number (R124, R140, R152, R165). -/
def State.raiseOnce (s : State) (c : Cause) (k : Nat) : State :=
  if s.work.raised.contains (c, k) then s else ({ s with work.raised := (c, k) :: s.work.raised } : State).raise c

/-- Raises a cause once in an event for one record if a condition holds. -/
def State.raiseOnceIf (s : State) (b : Bool) (c : Cause) (k : Nat) : State := if b then s.raiseOnce c k else s

/-- Entries written and not yet taken (R22). -/
def State.backlog (s : State) : Nat := (s.port.written - s.port.taken).toNat

/-- The log entry of an event at its append (Table 1-10). -/
def State.logEntry (s : State) (n : News) : LogEntry :=
  { clock := s.supply.mineClock, kind := n.kind, cls := n.cls, index := n.index, a := BitVec.ofNat 16 n.a,
    b := BitVec.ofNat 16 n.b, seq := BitVec.ofNat 16 s.port.written.toNat }

/-- Offers an event to the log: appended when there is room (R21), dropped while the log is full, the first drop of a full
episode raising LOG_FULL (R23). -/
def State.appendNow (s : State) (n : News) : State :=
  if 256 ≤ s.backlog then
    if s.port.fullEpisode then s else ({ s with port.fullEpisode := true } : State).raise .logFull
  else
    ({ s with
        port.log := storeAt s.port.log (s.port.written.toNat % 256) (s.logEntry n)
        port.written := s.port.written + 1#32 } : State).raise .eventLogged

/-- The place of an event among the head events of one reply: HEAD_REJECT, HEAD_LINK_CHANGE, POOR_LINK_CHANGE, HEAD_FAILSAFE,
HEAD_LOCAL_FAULT; none for any other event (R48). -/
def News.headPlace (x : News) : Option Nat :=
  match x.kind with
  | 0x12 => some 0
  | 0x10 => some 1
  | 0x11 => some 2
  | 0x13 => some 3
  | 0x14 => some 4
  | _ => none

/-- Of two events of one step, the first is appended before the second although it was offered later: they are head events of
one head, in the order of R48, or stand in one of the tables whose events are appended in the order of the table (R140, R152,
R165, R173, R181). -/
def News.before (x y : News) : Bool :=
  match x.headPlace, y.headPlace with
  | some m, some n => decide (x.index = y.index) && decide (m < n)
  | _, _ => decide (x.kind / 16 = y.kind / 16) && decide (6 ≤ x.kind / 16) && decide (x.kind < y.kind)

/-- Puts an offered event in its place among those that wait. -/
def insertNews (x : News) : List News → List News
  | [] => [x]
  | y :: ys => if x.before y then x :: y :: ys else y :: insertNews x ys

/-- Offers an event of the step in progress to the log: it is appended at the event's end (R21). DEDUCED, log entry 42. -/
def State.append (s : State) (kind cls index a b : Nat) : State :=
  { s with work.news := insertNews { kind := kind, cls := cls, index := index, a := a, b := b } s.work.news }

/-- The gathered record updates are made, one for each record and writing unit (R4, R71, R107), and the waiting events are
appended, in order (R21). -/
def State.flush (s : State) : State :=
  (s.work.news ++ s.work.late).foldl (fun s n => s.appendNow n)
    ((s.work.dirty ++ s.work.guests.map Prod.snd).foldl (fun s a => s.bumpNow a)
      { s with work.dirty := [], work.guests := [], work.news := [], work.late := [], work.raised := [] })

/-- The events that an operation offers are appended after the hand-offs of the step in progress (R106). -/
def State.tellLate (s : State) (f : State → State) : State :=
  let t := f { s with work.news := s.work.late }
  { t with work.news := s.work.news, work.late := t.work.news }

/-- The events kept for after the hand-offs are offered to the log at once. -/
def State.tellNow (s : State) : State := { s with work.news := s.work.news ++ s.work.late, work.late := [] }

/-- Offers an event if a condition holds. -/
def State.appendIf (s : State) (c : Bool) (kind cls index a b : Nat) : State :=
  if c then s.append kind cls index a b else s

/-! Subject classes (R21). -/
def clsZone : Nat := 0
def clsChannel : Nat := 1
def clsHead : Nat := 2
def clsRoster : Nat := 3
def clsVehicle : Nat := 4
def clsRefuge : Nat := 5
def clsOrder : Nat := 6
def clsDistrict : Nat := 7

/-- The code of an absent number in an event value or a payload byte: 0xFF. -/
def absent8 : Nat := 0xFF

/-- A number, or 0xFF when absent. -/
def orFF (o : Option Nat) : Nat := o.getD absent8

/-! ### Records and their updates -/

/-- A head record after reset (R37); the kind, loop position and keepalive window of an unconfigured row are DESIGN CHOICE, log entry 5. -/
def Head.blank : Head :=
  { configured := false, kind := .gas, position := 0, count := 0, window := 0, link := .unconfigured, poorLink := false,
    preferred := .a, missed := 0, nonGood := 0, newest := none, finding := .none, localFault := false, serial := none,
    identified := none, failsafes := 0, lastReply := none }

/-- What the part holds of a head after reset (R27, R38). -/
def HeadInner.blank : HeadInner := { toggle := false, history := [], clashSerials := [], lastWindow := 0 }

def State.head (s : State) (a : Nat) : Head := (lookupAt s.loop.heads a).getD Head.blank

def State.headInner (s : State) (a : Nat) : HeadInner := (lookupAt s.loop.inner a).getD HeadInner.blank

/-- A configured head in link state ONLINE. -/
def State.headOnline (s : State) (a : Nat) : Bool :=
  (s.head a).configured && decide ((s.head a).link = .online)

/-- A head takes a new record, if a field changes. -/
def State.putHead (s : State) (a : Nat) (h : Head) : State :=
  if s.head a = h then s
  else ({ s with loop.heads := storeAt s.loop.heads a h } : State).bump (headBase + a * headSize)

def State.putInner (s : State) (a : Nat) (h : HeadInner) : State :=
  { s with loop.inner := storeAt s.loop.inner a h }

/-- The loop statistics in row 0 change (R37). -/
def State.bumpStatistics (s : State) : State := s.bump headBase

def State.channel? (s : State) (i : Nat) : Option Channel := lookupAt s.air.channels i

/-- One record update of a channel, if a field changes. -/
def State.putChannel (s : State) (i : Nat) (c : Channel) : State :=
  if s.channel? i = some c then s
  else ({ s with air.channels := storeAt s.air.channels i c } : State).bump (channelBase + i * channelSize)

def State.channelWindow (s : State) (i : Nat) : List Nat := (lookupAt s.air.windows i).getD []

def State.putWindow (s : State) (i : Nat) (w : List Nat) : State :=
  { s with air.windows := storeAt s.air.windows i w }

def Aggregate.zero : Aggregate := { configured := 0, healthy := 0, highest := 0, atL3 := 0 }

/-- A zone entry that is not in use (R71, R72). -/
def Zone.blank : Zone :=
  { inUse := false, kind := .roadway, powered := false, vote := 0, neighbours := [], readers := [], relays := [],
    sounders := [], blocked := false, ch4 := .zero, co := .zero, o2 := .zero, airvel := .zero, mobile := false,
    covered := false, trip := .normal, cause := none, evacGas := false, passable := false, closed := false,
    relayFault := false, occupants := 0, vehicles := 0, condition := .normal, changed := 0 }

def State.zoneRec (s : State) (z : Nat) : Zone := (lookupAt s.zone.zones z).getD Zone.blank

/-- The zones in use, in ascending number. -/
def State.zonesInUse (s : State) : List Nat := (s.zone.zones.filter fun p => p.2.inUse).map Prod.fst

/-- One record update of a zone, if a field changes. -/
def State.putZone (s : State) (z : Nat) (r : Zone) : State :=
  if s.zoneRec z = r then s
  else ({ s with zone.zones := storeAt s.zone.zones z r } : State).bump (zoneBase + z * zoneSize)

/-- A guest's write of a count of a zone: one record update of its own, if the count changes (R71). -/
def State.putZoneAs (s : State) (g : Guest) (z : Nat) (r : Zone) : State :=
  if s.zoneRec z = r then s
  else ({ s with zone.zones := storeAt s.zone.zones z r } : State).bumpGuest g (zoneBase + z * zoneSize)

/-- A zone's trip latch, kept in the retained block (R82). -/
def State.latched (s : State) (z : Nat) : Bool := s.supply.retained.latches.contains z

def State.miner? (s : State) (i : Nat) : Option Miner := lookupAt s.people.roster i

/-- One record update of a roster entry, if a field changes. -/
def State.putMiner (s : State) (i : Nat) (m : Miner) : State :=
  if s.miner? i = some m then s
  else ({ s with people.roster := storeAt s.people.roster i m } : State).bump (rosterBase + i * rosterSize)

/-- The Evacuation Unit's write of an entry's muster fields: one record update of its own, if a field changes (R107, R159). -/
def State.putMuster (s : State) (i : Nat) (m : Miner) : State :=
  if s.miner? i = some m then s
  else ({ s with people.roster := storeAt s.people.roster i m } : State).bumpGuest .evacuation (rosterBase + i * rosterSize)

/-- A roster entry leaves use, in one record update. -/
def State.dropMiner (s : State) (i : Nat) : State :=
  ({ s with people.roster := dropAt s.people.roster i } : State).bump (rosterBase + i * rosterSize)

def State.vehicle? (s : State) (i : Nat) : Option Vehicle := lookupAt s.haul.vehicles i

/-- One record update of a vehicle entry, if a field changes. -/
def State.putVehicle (s : State) (i : Nat) (v : Vehicle) : State :=
  if s.vehicle? i = some v then s
  else ({ s with haul.vehicles := storeAt s.haul.vehicles i v } : State).bump (vehicleBase + i * vehicleSize)

def State.dropVehicle (s : State) (i : Nat) : State :=
  ({ s with haul.vehicles := dropAt s.haul.vehicles i } : State).bump (vehicleBase + i * vehicleSize)

def State.refuge? (s : State) (i : Nat) : Option Refuge := lookupAt s.route.refuges i

def State.putRefuge (s : State) (i : Nat) (r : Refuge) : State :=
  if s.refuge? i = some r then s
  else ({ s with route.refuges := storeAt s.route.refuges i r } : State).bump (refugeBase + i * refugeSize)

def State.dropRefuge (s : State) (i : Nat) : State :=
  ({ s with route.refuges := dropAt s.route.refuges i } : State).bump (refugeBase + i * refugeSize)

/-- An escape table entry after reset (R148). -/
def Escape.blank : Escape := { way := none, badAir := false }

def State.escape (s : State) (z : Nat) : Escape := (lookupAt s.route.escape z).getD Escape.blank

def State.putEscape (s : State) (z : Nat) (e : Escape) : State :=
  if s.escape z = e then s
  else ({ s with route.escape := storeAt s.route.escape z e } : State).bump (escapeBase + z * escapeSize)

/-- The target zone and next zone bytes of a zone's escape entry, 0xFF each when UNREACHABLE (R151). -/
def State.escapeBytes (s : State) (z : Option Nat) : Nat × Nat :=
  match z with
  | none => (absent8, absent8)
  | some z =>
    match (s.escape z).way with
    | some (_, next, target) => (target, next)
    | none => (absent8, absent8)

/-- One record update of a reader's list, if an entry or its marks change. DEDUCED, log entry 69. -/
def State.putList (s : State) (r : Nat) (l : DownList) : State :=
  if lookupAt s.people.lists r = some l then s
  else ({ s with people.lists := storeAt s.people.lists r l } : State).bump (downlinkBase + r * downlinkSize)

def State.pattern (s : State) (i : Nat) : Pattern := (lookupAt s.alarm.patterns i).getD ⟨0, 0, 0, 0⟩

def State.putPattern (s : State) (i : Nat) (p : Pattern) : State :=
  if s.pattern i = p then s
  else ({ s with alarm.patterns := storeAt s.alarm.patterns i p } : State).bump (patternBase + i * patternSize)

def State.choice (s : State) (z : Nat) : Choice := (lookupAt s.alarm.choices z).getD ⟨none, false⟩

/-- The in-flight list takes new contents: one record update of each changed position and one of the summary block's
count, in the same event (R5, R14). -/
def State.putInFlight (s : State) (l : List InFlight) : State :=
  (State.bumpPositions inFlightBase inFlightSize s.orders.inFlight l 0
    { s with orders.inFlight := l }).bumpSummary

/-- The encounter list takes new contents: one record update of each changed position (R136). -/
def State.putEncounters (s : State) (l : List Encounter) : State :=
  State.bumpPositions encounterBase encounterSize s.haul.encounters l 0 { s with haul.encounters := l }

/-! ### The order board as bytes (Table 1-4) -/

/-- The address of a byte of a slot. -/
def slotAddr (n off : Nat) : Nat := boardBase + slotSize * n + off

def State.slotByte (s : State) (n off : Nat) : Byte := readMem s.port.board (slotAddr n off)

/-- The hand-over values (Table 1-4). -/
def handEmpty : Byte := 0
def handPosted : Byte := 1
def handTaken : Byte := 2
def handDone : Byte := 3

def State.handOver (s : State) (n : Nat) : Byte := s.slotByte n 0

/-- The take number a slot shows. -/
def State.slotTake (s : State) (n : Nat) : Half :=
  BitVec.ofNat 16 ((s.slotByte n 2).toNat + 256 * (s.slotByte n 3).toNat)

/-- The part writes bytes of a slot; their check bits are computed anew (R6). -/
def State.writeSlot (s : State) (n off : Nat) (bs : List Byte) : State :=
  { s with
    port.board := writeBytes s.port.board (slotAddr n off) bs
    port.badBytes := s.port.badBytes.filter fun a => !(decide (slotAddr n off ≤ a) && decide (a < slotAddr n off + bs.length)) }

/-- The eight result value bytes: those named, and 0 for the rest (R13). -/
def resultBytes (vals : List Byte) : List Byte := (vals ++ List.replicate 8 0#8).take 8

/-- Writes the end of an order into its slot and raises ORDER_ENDED (R13, R15). -/
def State.writeDone (s : State) (n : Nat) (r : OrderResult) (q : Nat) (vals : List Byte) : State :=
  (((s.writeSlot n 4 [BitVec.ofNat 8 r.ctorIdx, BitVec.ofNat 8 q]).writeSlot n 56 (resultBytes vals)).writeSlot n 0
    [handDone]).raise .orderEnded

/-! ### Hand-offs deferred to the end of the event's own work -/

/-- Asks for one recompute of the escape table (R148). -/
def State.askRecompute (s : State) : State := { s with work.recompute := true }

/-- Hands a trigger, a gas report or a report of a roster entry to the Evacuation Unit. -/
def State.handEvac (s : State) (t : EvacTask) : State := { s with work.evac := s.work.evac ++ [t] }

/-- Hands a change of a roster entry's state or zone to the Vehicle Unit; `gone` where the entry left use or was restarted
(R106, R135, R137). -/
def State.handMeet (s : State) (i : Nat) (gone : Bool) : State := { s with work.meets := s.work.meets ++ [(i, gone)] }

/-- A channel's health by its state alone (R55). -/
def ChannelState.healthy : ChannelState → Bool
  | .normal | .settling => true
  | .bump | .recovery | .cal | .selfcheck | .fault => false

/-- A channel is healthy while its state is NORMAL or SETTLING and its head is ONLINE (R55). -/
def State.healthy (s : State) (c : Channel) : Bool := c.state.healthy && s.headOnline c.head

/-- A channel is attached to its head (R54). -/
def State.attached (s : State) (c : Channel) : Bool :=
  let h := s.head c.head
  h.configured &&
    match h.kind with
    | .gas => decide (c.slot < h.count)
    | .refuge => (decide (c.slot = 0) && decide (c.kind = .o2)) || (decide (c.slot = 1) && decide (c.kind = .co))
    | .reader | .relay | .sounder => false

/-- Applies an operation for each number of a list, in order. -/
def forEach (l : List Nat) (f : Nat → State → State) (s : State) : State := l.foldl (fun s i => f i s) s

end Sys2Proof.Machine
end

