-- ==== Sys2Proof/Machine/Flags.lean ====
section
/-! DEFINITION. Flag and status computations: the CRC-8, STATE, NOTICE and NOTIFY, the outputs, and the codes of named
values. -/

namespace Sys2Proof.Machine

open Sys2Proof.Config

/-! ### CRC-8 (R17, R25) -/

/-- One bit of the CRC-8 with polynomial x^8+x^5+x^3+x^2+x+1, most significant bit first. -/
def crcShift (c : Byte) : Byte := if c.msb then (c <<< 1) ^^^ 0x2F#8 else c <<< 1

/-- One byte of the CRC-8. -/
def crcByte (c b : Byte) : Byte :=
  crcShift (crcShift (crcShift (crcShift (crcShift (crcShift (crcShift (crcShift (c ^^^ b))))))))

/-- The CRC-8 of a list of bytes: initial value 0xFF, no final inversion. -/
def crc8 (bs : List Byte) : Byte := bs.foldl crcByte 0xFF#8

/-! ### The STATE register (Table 1-3) -/

/-- Any-latch: set while a trip latch is set, from the end of BOOT on (R7). -/
def State.anyLatch (s : State) : Bool := !s.supply.retained.latches.isEmpty && !decide (s.supply.phase = .boot)

def State.stateRegister (s : State) : Half :=
  BitVec.ofNat 16 (s.supply.phase.ctorIdx + 4 * s.supply.mode.ctorIdx + 16 * s.supply.fatal.ctorIdx
    + 64 * s.anyLatch.toNat + 128 * s.evac.state.ctorIdx)

/-- NOTIFY is driven low while NOTICE ANDed with NOTICE_ENABLE is not zero (R20). -/
def State.notifyLow (s : State) : Bool := !decide (s.port.notice &&& s.port.enable = 0)

/-! ### Local outputs (R171) -/

/-- OUT2, the beacon: on in each on-phase. -/
def State.out2 (s : State) : Bool := s.alarm.play.pattern.isSome && decide (s.alarm.play.stage = .on)

/-- OUT1, the sounder: the duty code of the tone driven in each on-phase, absent while off. -/
def State.out1 (s : State) : Option Nat :=
  match s.alarm.play.pattern, s.alarm.play.stage with
  | some p, .on => some (s.pattern p).duty
  | _, _ => none

/-! ### Codes -/

/-- Downlink kind codes, which are the priorities (Table 6-2). -/
def DownKind.code (k : DownKind) : Nat := k.ctorIdx + 1

/-- The downlink kind of a code, none for a code that names no kind. -/
def DownKind.ofCode : Nat → Option DownKind
  | 1 => some .callTaken
  | 2 => some .callAnswer
  | 3 => some .page
  | 4 => some .vehicleNear
  | 5 => some .vehicleCommand
  | 6 => some .withdraw
  | 7 => some .evacuate
  | _ => none

/-- The line code of a call: OK 1, CALL_ME 2, HELP 3 (Table 2-2). -/
def CallCode.line (c : CallCode) : Nat := c.ctorIdx + 1

/-- The call of a line code; NONE and codes outside 0..3 give none. -/
def CallCode.ofLine : Nat → Option CallCode
  | 1 => some .ok
  | 2 => some .callMe
  | 3 => some .help
  | _ => none

/-- The head kind of a code 0..4 (R42). -/
def HeadKind.ofCode : Nat → HeadKind
  | 0 => .gas
  | 1 => .reader
  | 2 => .relay
  | 3 => .refuge
  | _ => .sounder

def ChannelKind.ofCode : Nat → ChannelKind
  | 0 => .ch4
  | 1 => .co
  | 2 => .o2
  | _ => .airvel

def ZoneKind.ofCode : Nat → ZoneKind
  | 0 => .roadway
  | 1 => .face
  | 2 => .exit
  | _ => .refuge

def Command.ofCode : Nat → Command
  | 0 => .none
  | 1 => .slow
  | 2 => .stop
  | _ => .withdraw

def EvacPolicy.ofCode : Nat → EvacPolicy
  | 0 => .off
  | 1 => .ask
  | _ => .auto

/-- The stronger of two commands (R130). -/
def Command.max (a b : Command) : Command := if a.ctorIdx < b.ctorIdx then b else a

/-- The higher of two zone conditions, in the rank of R88. -/
def ZoneCondition.max (a b : ZoneCondition) : ZoneCondition := if a.ctorIdx < b.ctorIdx then b else a

/-! ### Channel kinds (Table 3-1) -/

/-- Full scale FS. -/
def ChannelKind.fullScale : ChannelKind → Nat
  | .ch4 => 500
  | .co => 1000
  | .o2 => 250
  | .airvel => 1500

/-- A higher value is worse. -/
def ChannelKind.rising : ChannelKind → Bool
  | .ch4 | .co => true
  | .o2 | .airvel => false

/-- The hysteresis ceiling, floor(FS/10). -/
def ChannelKind.hystCeiling (k : ChannelKind) : Nat := k.fullScale / 10

/-- Digits to the right of the decimal point on a panel. -/
def ChannelKind.point : ChannelKind → Nat
  | .ch4 => 2
  | .co => 0
  | .o2 => 1
  | .airvel => 2

end Sys2Proof.Machine
end

