-- ==== Sys2Proof/Machine/Operands.lean ====
section
/-! DEFINITION. Operand forms: the argument bytes of every order and their range checks (step 4 of R12), the frames' bytes
(Table 2-1, Table 2-2) and the reading of a reply's bytes. -/

namespace Sys2Proof.Machine

open Sys2Proof.Config

/-! ### Arguments of an order, copied from its slot (R11) -/

/-- The number in `n` bytes of a slot from an offset, least significant byte first. -/
def State.arg (s : State) (slot off n : Nat) : Nat :=
  ofLeBytes ((List.range n).map fun k => s.slotByte slot (off + k))

/-- The bytes of a slot from an offset, as numbers. -/
def State.argList (s : State) (slot off n : Nat) : List Nat :=
  (List.range n).map fun k => (s.slotByte slot (off + k)).toNat

/-- The pairs of bytes of a slot from an offset. -/
def State.argPairs (s : State) (slot off n : Nat) : List (Nat × Nat) :=
  (List.range n).map fun k => ((s.slotByte slot (off + 2 * k)).toNat, (s.slotByte slot (off + 2 * k + 1)).toNat)

/-- The command a slot's order code and arguments spell (Table 1-6); none for a code outside the catalogue. -/
def State.decodeOrder (s : State) (n : Nat) : Option Instr :=
  let b (off : Nat) : Nat := s.arg n off 1
  let w (off : Nat) : Nat := s.arg n off 2
  match (s.slotByte n 1).toNat with
  | 0x01 =>
    some (.setPolicy n
      { pollPeriod := w 8, tripCeiling := w 10, blindGrace := w 12, lostTime := w 14, onboardLimit := w 16,
        zeroTolerance := w 18, evacPolicy := b 20, askWindow := w 21, musterDeadline := b 23, patEvacuate := b 24,
        patDrill := b 25, patTrip := b 26, patAlarm := b 27, patWarn := b 28, patFault := b 29 })
  | 0x02 =>
    some (.setHead n
      { address := b 8, kind := b 9, position := b 10, count := b 11, window := b 12, serial := s.arg n 13 4 })
  | 0x03 => some (.retireHead n (b 8))
  | 0x04 =>
    some (.setChannel n
      { index := b 8, op := b 9, kind := b 10, head := b 11, slot := b 12, zone := b 13, zero := w 14, span := w 16,
        gas := w 18, l1 := w 20, l2 := w 22, l3 := w 24, hyst := w 26, window := b 28 })
  | 0x05 =>
    some (.setZone n
      { zone := b 8, op := b 9, kind := b 10, powered := b 11, vote := b 12, nNeighbours := b 13,
        neighbours := s.argList n 14 4, nReaders := b 18, readers := s.argList n 19 2, nRelays := b 21,
        relays := s.argPairs n 22 4, nSounders := b 30, sounders := s.argList n 31 4 })
  | 0x06 =>
    some (.setRefuge n
      { index := b 8, op := b 9, zone := b 10, panel := b 11, capacity := b 12, o2 := b 13, co := b 14 })
  | 0x07 => some (.setRosterEntry n (b 8) (b 9) (s.arg n 10 3) (w 13))
  | 0x08 => some (.setVehicle n { index := b 8, op := b 9, tag := s.arg n 10 3, number := b 13, drive := b 14 })
  | 0x09 => some (.setPattern n { index := b 8, onTime := b 9, offTime := b 10, duty := b 11, repeats := b 12 })
  | 0x0A =>
    some (.setInput n { input := b 8, mode := b 9, polarity := b 10, enable := b 11, zone := b 12, clear := b 13 })
  | 0x0F => some (.startDistrict n)
  | 0x10 => some (.rollCall n)
  | 0x11 => some (.assignAddress n (s.arg n 8 4) (b 12))
  | 0x20 => some (.clearTrip n (b 8) (b 9))
  | 0x21 => some (.bumpTest n (b 8) (w 9) (w 11) (w 13))
  | 0x22 => some (.selfCheck n (b 8) (b 9))
  | 0x23 => some (.calibrate n (b 8) (b 9) (w 10))
  | 0x30 => some (.page n (b 8) (b 9) (b 10) (w 11))
  | 0x31 => some (.answerCall n (b 8) (b 9))
  | 0x32 => some (.commandVehicle n (b 8) (b 9))
  | 0x40 => some (.blockZone n (b 8))
  | 0x41 => some (.openZone n (b 8))
  | 0x50 => some (.startEvacuation n (b 8) (b 9))
  | 0x51 => some (.declineEvacuation n (b 8))
  | 0x52 => some (.standDown n (b 8))
  | 0x53 => some (.markAccounted n (b 8))
  | 0x60 => some (.setClock n (s.arg n 8 6))
  | 0x61 => some (.cancel n (b 8))
  | _ => none

/-! ### Range checks (step 4 of R12) -/

/-- A value lies in a range. -/
def inRange (v lo hi : Nat) : Bool := decide (lo ≤ v) && decide (v ≤ hi)

/-- The offset of the first field out of range, of fields listed with their offsets. -/
def firstBad (l : List (Nat × Bool)) : Option Nat := (l.find? fun p => !p.2).map Prod.fst

/-- The checks of a list's places: those within the count, each at its offset. -/
def placeChecks (count off step : Nat) (ok : Nat → Bool) (l : List Nat) : List (Nat × Bool) :=
  ((l.take count).zipIdx).map fun p => (off + step * p.2, ok p.1)

/-- A SET POLICY field is kept when its bytes are all ones (R180). -/
def keeps (bytes v : Nat) : Bool := decide (v = 256 ^ bytes - 1)

/-- A SET POLICY field kept or in range. -/
def policyOk (bytes v lo hi : Nat) : Bool := keeps bytes v || inRange v lo hi

def policyBad (a : PolicyArgs) : Option Nat :=
  firstBad
    [(8, policyOk 2 a.pollPeriod 250 4000), (10, policyOk 2 a.tripCeiling 50 200), (12, policyOk 2 a.blindGrace 0 600),
     (14, policyOk 2 a.lostTime 10 600), (16, policyOk 2 a.onboardLimit 10 500), (18, policyOk 2 a.zeroTolerance 1 200),
     (20, policyOk 1 a.evacPolicy 0 2), (21, policyOk 2 a.askWindow 30 300), (23, policyOk 1 a.musterDeadline 5 120),
     (24, policyOk 1 a.patEvacuate 0 7), (25, policyOk 1 a.patDrill 0 7), (26, policyOk 1 a.patTrip 0 7),
     (27, policyOk 1 a.patAlarm 0 7), (28, policyOk 1 a.patWarn 0 7), (29, policyOk 1 a.patFault 0 7)]

/-- The count argument of SET HEAD: 1..4 for GAS, 1..2 for RELAY, ignored for the other kinds (R42). -/
def headCountOk (kind count : Nat) : Bool :=
  match kind with
  | 0 => inRange count 1 4
  | 2 => inRange count 1 2
  | _ => true

def headBad (a : HeadArgs) : Option Nat :=
  firstBad
    [(8, inRange a.address 1 63), (9, inRange a.kind 0 4), (10, inRange a.position 1 63), (11, headCountOk a.kind a.count),
     (12, inRange a.window 1 30), (13, inRange a.serial 1 maxSerial)]

def channelBad (a : ChannelArgs) : Option Nat :=
  let fs := (ChannelKind.ofCode a.kind).fullScale
  firstBad
    ([(8, inRange a.index 0 95), (9, inRange a.op 0 1)] ++
      if a.op = 0 then []
      else
        [(10, inRange a.kind 0 3), (11, inRange a.head 1 63), (12, inRange a.slot 0 3),
         (13, inRange a.zone 0 31 || decide (a.zone = absent8)), (14, inRange a.zero 0 4031), (16, inRange a.span 0 4095),
         (18, inRange a.gas 1 fs), (20, inRange a.l1 0 fs), (22, inRange a.l2 0 fs), (24, inRange a.l3 0 fs),
         (28, inRange a.window 1 8)])

/-- SET ZONE (R73). Each entry of a list is a field with its own offset. DESIGN CHOICE, log entry 65. -/
def zoneBad (a : ZoneArgs) : Option Nat :=
  let relayChecks := ((a.relays.take a.nRelays).zipIdx).flatMap fun p =>
    [(22 + 2 * p.2, inRange p.1.1 1 63), (23 + 2 * p.2, inRange p.1.2 0 1)]
  firstBad
    ([(8, inRange a.zone 0 31), (9, inRange a.op 0 1)] ++
      if a.op = 0 then []
      else
        [(10, inRange a.kind 0 3), (11, inRange a.powered 0 1), (12, inRange a.vote 1 2), (13, inRange a.nNeighbours 0 4)]
          ++ placeChecks a.nNeighbours 14 1 (fun v => inRange v 0 31) a.neighbours
          ++ [(18, inRange a.nReaders 0 2)] ++ placeChecks a.nReaders 19 1 (fun v => inRange v 1 63) a.readers
          ++ [(21, inRange a.nRelays 0 4)] ++ relayChecks
          ++ [(30, inRange a.nSounders 0 4)] ++ placeChecks a.nSounders 31 1 (fun v => inRange v 1 63) a.sounders)

def refugeBad (a : RefugeArgs) : Option Nat :=
  firstBad
    ([(8, inRange a.index 0 3), (9, inRange a.op 0 1)] ++
      if a.op = 0 then []
      else
        [(10, inRange a.zone 0 31), (11, inRange a.panel 1 63), (12, inRange a.capacity 1 60), (13, inRange a.o2 0 95),
         (14, inRange a.co 0 95)])

/-- SET ROSTER ENTRY (R109). -/
def rosterBad (index op tag person : Nat) : Option Nat :=
  firstBad
    ([(8, inRange index 0 255), (9, inRange op 0 1)] ++
      if op = 0 then [] else [(10, inRange tag 1 0x7FFFFF), (13, inRange person 1 65535)])

def vehicleBad (a : VehicleArgs) : Option Nat :=
  firstBad
    ([(8, inRange a.index 0 23), (9, inRange a.op 0 1)] ++
      if a.op = 0 then []
      else [(10, inRange a.tag 0x800000 0xFFFFFE), (13, inRange a.number 1 255), (14, inRange a.drive 0 1)])

def patternBad (a : PatternArgs) : Option Nat :=
  firstBad
    [(8, inRange a.index 0 6), (9, inRange a.onTime 0 255), (10, inRange a.offTime 0 255), (11, inRange a.duty 0 3),
     (12, inRange a.repeats 0 15)]

/-- SET INPUT: the zone byte counts for IN4 alone (R174). -/
def inputBad (a : InputArgs) : Option Nat :=
  firstBad
    [(8, inRange a.input 1 4), (9, inRange a.mode 0 1), (10, inRange a.polarity 0 1), (11, inRange a.enable 0 1),
     (12, !decide (a.input = 4) || inRange a.zone 0 31 || decide (a.zone = absent8)), (13, inRange a.clear 0 1)]

/-! ### Frames as bytes (Table 2-1, Table 2-2) -/

def bit (b : Bool) (n : Nat) : Nat := if b then 2 ^ n else 0

def DownEntry.frameBytes (e : DownEntry) : List Byte :=
  leBytes 3 e.tag ++ [BitVec.ofNat 8 e.kind.code, BitVec.ofNat 8 e.code, BitVec.ofNat 8 e.target, BitVec.ofNat 8 e.next]

/-- The payload bytes of a frame: multi-byte fields least significant byte first. -/
def Payload.bytes : Payload → List Byte
  | .empty => []
  | .gas window step => [BitVec.ofNat 8 window, BitVec.ofNat 8 step]
  | .reader window es => [BitVec.ofNat 8 window, BitVec.ofNat 8 es.length] ++ es.flatMap DownEntry.frameBytes
  | .relay window hold => BitVec.ofNat 8 window :: hold.map fun h => if h then 0#8 else 1#8
  | .refuge window o2 o2Point co coPoint =>
    BitVec.ofNat 8 window :: leBytes 2 o2 ++ [BitVec.ofNat 8 o2Point] ++ leBytes 2 co ++ [BitVec.ofNat 8 coPoint]
  | .sounder window onTime offTime duty repeats =>
    [BitVec.ofNat 8 window, BitVec.ofNat 8 onTime, BitVec.ofNat 8 offTime, BitVec.ofNat 8 duty, BitVec.ofNat 8 repeats]
  | .assign serial address => leBytes 4 serial ++ [BitVec.ofNat 8 address]

/-- A frame's bytes with its CRC (R25). -/
def Frame.bytes (f : Frame) : List Byte :=
  let p := f.payload.bytes
  let body := [BitVec.ofNat 8 f.address, BitVec.ofNat 8 (f.kind.ctorIdx + bit f.toggle 7), BitVec.ofNat 8 p.length] ++ p
  body ++ [crc8 body]

/-! ### Replies from bytes (R24, Table 2-1, Table 2-2) -/

/-- The reading of a raw count and its flags byte. -/
def rawReading (lo hi flags : Byte) : RawReading :=
  { raw := lo.toNat + 256 * hi.toNat, warmup := flags.toNat.testBit 0, sensor := flags.toNat.testBit 1 }

/-- The channel slots of a GAS payload, and the self-check report of its last four bytes. -/
def gasPayload (h : ReplyHead) : List Byte → List RawReading → Option Instr
  | [st, verdict, lo, hi], rs =>
    some (.gasReply
      { head := h, slots := rs, step := st.toNat, verdict := verdict.toNat, value := lo.toNat + 256 * hi.toNat })
  | lo :: hi :: fl :: rest, rs => gasPayload h rest (rs ++ [rawReading lo hi fl])
  | _, _ => none

/-- The largest payload of a reply (Table 2-1). -/
def replyMax : Nat := 48

/-- The payload bytes a sighting takes (Table 2-2). -/
def Sighting.size (x : Sighting) : Nat := if x.vehicle.isSome then 10 else 6

/-- The sightings of a READER reply, 0 to 8, fit in its payload (Table 2-2). -/
def sightingsFit (l : List Sighting) : Bool := decide (l.length ≤ 8) && decide ((l.map Sighting.size).sum ≤ replyMax)

/-- The sightings of a READER payload, back to back: the high bit of the tag id calls for the vehicle fields. -/
def sightings : List Byte → Nat → Option (List Sighting)
  | [], _ => some []
  | _, 0 => none
  | t0 :: t1 :: t2 :: st :: call :: ack :: rest, n + 1 =>
    let base : Sighting :=
      { tag := t0.toNat + 256 * t1.toNat + 65536 * t2.toNat
        strength := st.toNat % 64
        batteryLow := st.toNat.testBit 6
        motionless := st.toNat.testBit 7
        call := call.toNat % 4
        seq := call.toNat / 16
        ack := if ack.toNat = absent8 then none else some ack.toNat
        vehicle := none }
    if t2.msb then
      match rest with
      | speed :: lo :: hi :: echo :: rest' =>
        (sightings rest' n).map fun l =>
          { base with
            vehicle := some { speed := speed.toNat, onboard := lo.toNat + 256 * hi.toNat, echo := echo.toNat } } :: l
      | _ => none
    else (sightings rest n).map fun l => base :: l
  | _, _ => none

/-- The command a reply's payload spells, by its kind and the frame it answers (Table 2-2). A feedback byte other than 1 is OPEN, and a
pull handle byte other than 0 is PULLED. DESIGN CHOICE, log entry 63. -/
def replyPayload (sent : FrameKind) (kind : Nat) (h : ReplyHead) (p : List Byte) : Option Instr :=
  match sent with
  | .identify =>
    match p with
    | [_, _, _, _] =>
      if kind ≤ 4 then some (.identifyReply { head := h, kind := HeadKind.ofCode kind, serial := ofLeBytes p }) else none
    | _ => none
  | .poll =>
    match kind, p with
    | 0, p => gasPayload h p []
    | 1, p => (sightings p 8).map fun l => .readerReply { head := h, sightings := l }
    | 2, p => some (.relayReply { head := h, closed := p.map fun b => decide (b = 1#8) })
    | 3, [door, i0, i1, o0, o1, battery, pull, a0, a1, af, c0, c1, cf] =>
      some (.refugeReply
        { head := h, door := door.toNat, inCount := i0.toNat + 256 * i1.toNat, outCount := o0.toNat + 256 * o1.toNat,
          battery := battery.toNat, pull := pull.toNat, o2 := rawReading a0 a1 af, co := rawReading c0 c1 cf })
    | 4, [pull] => some (.sounderReply { head := h, pulled := !decide (pull = 0#8) })
    | _, _ => none
  | .assign | .marker => none

/-- The command the bytes of a reply are: the reply of its kind, or GARBLED_REPLY when CRC, kind or length fail (R24, R25): after
the four first bytes stand the payload, as long as byte 3 says and at most 48 bytes, and the CRC byte. The address, the toggle
and the configured counts are compared by the command itself. -/
def replyCommand (sent : FrameKind) (bytes : List Byte) : Instr :=
  match bytes with
  | b0 :: b1 :: b2 :: b3 :: rest =>
    let payload := rest.dropLast
    let h : ReplyHead :=
      { address := b0.toNat % 64, toggle := b1.msb, rejected := b2.toNat.testBit 0, localFault := b2.toNat.testBit 1,
        failsafe := b2.toNat.testBit 2, warmup := b2.toNat.testBit 3, more := b2.toNat.testBit 4 }
    if crc8 bytes.dropLast = bytes.getLast?.getD 0#8 ∧ rest.length = b3.toNat + 1 ∧ b3.toNat ≤ replyMax then
      (replyPayload sent (b1.toNat % 8) h payload).getD .garbledReply
    else .garbledReply
  | _ => .garbledReply

end Sys2Proof.Machine
end

