-- ==== Sys2Proof/Machine/Views.lean ====
section
/-! DEFINITION. How the part shows its records in exchange memory: the bytes of every region, computed from the owning
blocks' records by the conventions of R3. A field whose chapter gives only a range takes the least whole number of bytes
that holds the range. -/

namespace Sys2Proof.Machine

open Sys2Proof.Config

/-- A flag's byte (R3). -/
def flagByte (b : Bool) : List Byte := [if b then 1 else 0]

/-- A one-byte number. -/
def num1 (n : Nat) : List Byte := leBytes 1 n

/-- A field of `w` bytes that may be absent: every byte 0xFF when it is (R3). -/
def optField (w : Nat) : Option Nat → List Byte
  | some n => leBytes w n
  | none => List.replicate w 0xFF#8

/-- The places of a list field, the unused ones absent. -/
def placesField (places w : Nat) (l : List Nat) : List Byte :=
  (((l.map some) ++ List.replicate places none).take places).flatMap (optField w)

/-- A half word's bytes. -/
def halfBytes (h : Half) : List Byte := leBytes 2 h.toNat

/-- A clock's low 32 bits. -/
def clockLow (c : Clock) : Nat := c.toNat % 2 ^ 32

/-! A record's fields are listed in the order of its chapter from the version count on, each as its bytes; a list with its
count is one field. -/

/-- The version count of the record at an address, as a field. -/
def State.versionField (s : State) (addr : Nat) : List Byte := halfBytes (s.version addr)

/-- The summary block (R5). DEDUCED, log entry 8. The eight values of IN1 to IN4 stand as four raw values and then four statuses, with an
active status 1. DESIGN CHOICE, log entry 61. -/
def State.summaryFields (s : State) : List (List Byte) :=
  [s.versionField summaryBase, num1 layoutVersion, leBytes 6 s.port.shownMine.toNat, leBytes 6 s.port.shownRun.toNat,
   num1 s.supply.phase.ctorIdx, num1 s.supply.mode.ctorIdx, num1 s.alarm.district.ctorIdx, num1 s.loop.state.ctorIdx,
   optField 1 (s.loop.span.map Prod.fst), optField 1 (s.loop.span.map Prod.snd), num1 s.evac.state.ctorIdx,
   flagByte s.evac.drill, leBytes 2 s.evac.required, leBytes 2 s.evac.safe, leBytes 2 s.evac.unaccounted,
   leBytes 2 s.evac.assist, halfBytes s.route.generation, flagByte s.supply.in1.raw, flagByte s.supply.in2.raw,
   flagByte s.supply.in3.raw, flagByte s.supply.in4.raw, flagByte s.supply.in1.status, flagByte s.supply.in2.status,
   flagByte s.supply.in3.status, flagByte s.supply.in4.status, num1 s.orders.inFlight.length]

/-- A head table row: the loop statistics in row 0, a head record elsewhere (R37). -/
def State.headFields (s : State) (a : Nat) : List (List Byte) :=
  s.versionField (headBase + a * headSize) ::
    if a = 0 then [leBytes 4 s.loop.rounds.toNat, leBytes 2 s.loop.overruns, num1 s.loop.state.ctorIdx]
    else
      let h := s.head a
      [flagByte h.configured, num1 h.kind.ctorIdx, num1 h.position, num1 h.count, num1 h.window, num1 h.link.ctorIdx,
       flagByte h.poorLink, num1 h.preferred.ctorIdx, num1 h.missed, num1 h.nonGood, optField 1 (h.newest.map (·.ctorIdx)),
       num1 h.finding.ctorIdx, flagByte h.localFault, optField 4 h.serial, optField 4 h.identified, leBytes 2 h.failsafes,
       optField 4 h.lastReply]

/-- The fields of a channel in use after its version count (R50). -/
def Channel.fields (i : Nat) (c : Channel) : List (List Byte) :=
  [num1 i, flagByte true, num1 c.kind.ctorIdx, num1 c.head, num1 c.slot, optField 1 c.zone, leBytes 2 c.zero,
   leBytes 2 c.span, leBytes 2 c.gas, leBytes 2 c.l1, leBytes 2 c.l2, leBytes 2 c.l3, num1 c.hyst, num1 c.window,
   num1 c.state.ctorIdx, optField 1 (c.cause.map (·.ctorIdx)), optField 2 c.lastRaw, leBytes 2 c.v, optField 2 c.mean,
   num1 c.level, flagByte c.overRange, num1 c.n, leBytes 4 c.changed]

/-- A channel record; an unused entry shows its version count alone (R3). -/
def State.channelFields (s : State) (i : Nat) : List (List Byte) :=
  s.versionField (channelBase + i * channelSize) :: ((s.channel? i).map (Channel.fields i)).getD []

def Aggregate.fields (a : Aggregate) : List (List Byte) :=
  [num1 a.configured, num1 a.healthy, num1 a.highest, num1 a.atL3]

/-- A list field: its count and its places, the unused ones absent. -/
def listField (places : Nat) (count : Nat) (l : List Nat) : List Byte := num1 count ++ placesField places 1 l

/-- A zone record, shown while the zone is in use or its latch is set (R71, R72). -/
def State.zoneFields (s : State) (z : Nat) : List (List Byte) :=
  let r := s.zoneRec z
  s.versionField (zoneBase + z * zoneSize) ::
    if r.inUse || s.latched z then
      [num1 z, flagByte r.inUse, num1 r.kind.ctorIdx, flagByte r.powered, num1 r.vote,
       listField 4 r.neighbours.length r.neighbours, listField 2 r.readers.length r.readers,
       listField 8 r.relays.length (r.relays.flatMap fun p => [p.1, p.2]), listField 4 r.sounders.length r.sounders,
       flagByte r.blocked] ++ r.ch4.fields ++ r.co.fields ++ r.o2.fields ++ r.airvel.fields ++
      [flagByte r.mobile, flagByte r.covered, num1 r.trip.ctorIdx, flagByte (s.latched z),
       optField 1 (r.cause.map (·.ctorIdx)), flagByte r.evacGas, flagByte r.passable, flagByte r.closed,
       flagByte r.relayFault, leBytes 2 r.occupants, num1 r.vehicles, num1 r.condition.ctorIdx, leBytes 4 r.changed]
    else []

/-- The fields of a roster entry in use after its version count (R107). -/
def Miner.fields (i : Nat) (m : Miner) : List (List Byte) :=
  [num1 i, flagByte true, leBytes 3 m.tag, leBytes 2 m.person, num1 m.state.ctorIdx, optField 1 m.zone,
   optField 1 m.lastReader, num1 m.strength, optField 4 (m.lastSeen.map clockLow), optField 1 (m.call.map (·.ctorIdx)),
   optField 4 m.callTime, optField 1 m.lastSeq, optField 2 m.pageTake, optField 1 m.pageCode,
   optField 1 (m.pageAck.map Bool.toNat), num1 m.muster.ctorIdx, flagByte m.accounted, flagByte m.assist,
   flagByte m.batteryLow, flagByte m.motionless]

/-- A roster entry (R107). -/
def State.rosterFields (s : State) (i : Nat) : List (List Byte) :=
  s.versionField (rosterBase + i * rosterSize) :: ((s.miner? i).map (Miner.fields i)).getD []

/-- The fields of a vehicle entry in use after its version count (R125). -/
def Vehicle.fields (i : Nat) (v : Vehicle) : List (List Byte) :=
  [num1 i, flagByte true, leBytes 3 v.tag, num1 v.number, num1 v.drive.ctorIdx, num1 v.state.ctorIdx, optField 1 v.zone,
   optField 1 v.lastReader, num1 v.strength, optField 4 (v.lastSeen.map clockLow), num1 v.speed, flagByte v.moving,
   leBytes 2 v.onboard, flagByte v.batteryLow, num1 v.host.ctorIdx, num1 v.zoneCmd.ctorIdx, num1 v.encounterCmd.ctorIdx,
   num1 v.evacCmd.ctorIdx, num1 v.onboardCmd.ctorIdx, num1 v.crowdedCmd.ctorIdx, num1 v.effective.ctorIdx,
   num1 v.acked.ctorIdx, flagByte v.crowded, num1 v.unacked]

/-- A vehicle entry (R125). -/
def State.vehicleFields (s : State) (i : Nat) : List (List Byte) :=
  s.versionField (vehicleBase + i * vehicleSize) :: ((s.vehicle? i).map (Vehicle.fields i)).getD []

/-- The fields of an encounter list entry after its version count (R136). -/
def Encounter.fields (e : Encounter) : List (List Byte) :=
  [num1 e.vehicle, num1 e.miner, num1 e.zone, leBytes 4 e.created, num1 e.miss]

/-- An encounter list position (R136). -/
def State.encounterFields (s : State) (i : Nat) : List (List Byte) :=
  s.versionField (encounterBase + i * encounterSize) :: (s.haul.encounters[i]?.map Encounter.fields).getD []

/-- The fields of a refuge in use after its version count (R141). -/
def Refuge.fields (i : Nat) (r : Refuge) : List (List Byte) :=
  [num1 i, flagByte true, num1 r.zone, num1 r.panel, num1 r.capacity, num1 r.door.ctorIdx, leBytes 2 r.inCount,
   leBytes 2 r.outCount, num1 r.doorOcc, leBytes 2 r.tagOcc, num1 r.o2, num1 r.co, num1 r.battery.ctorIdx,
   flagByte r.pulled, flagByte r.usable, num1 r.reasons, flagByte r.mismatch]

/-- A refuge record (R141). -/
def State.refugeFields (s : State) (i : Nat) : List (List Byte) :=
  s.versionField (refugeBase + i * refugeSize) :: ((s.refuge? i).map (Refuge.fields i)).getD []

/-- An escape table entry (R148). -/
def State.escapeFields (s : State) (z : Nat) : List (List Byte) :=
  let e := s.escape z
  let (d, next, target) := e.way.getD (absent8, absent8, absent8)
  [s.versionField (escapeBase + z * escapeSize), num1 z, num1 d, num1 next, num1 target, flagByte e.badAir]

/-- A downlink entry as its list shows it (R120). -/
def DownEntry.bytes (e : DownEntry) : List Byte :=
  leBytes 3 e.tag ++ num1 e.kind.code ++ num1 e.code ++ num1 e.target ++ num1 e.next

/-- A downlink list position (R120). -/
def State.downlinkFields (s : State) (r : Nat) : List (List Byte) :=
  s.versionField (downlinkBase + r * downlinkSize) ::
    match lookupAt s.people.lists r with
    | none => []
    | some l => num1 l.reader :: num1 l.entries.length :: l.entries.map DownEntry.bytes

/-- A pattern record (R166). -/
def State.patternFields (s : State) (i : Nat) : List (List Byte) :=
  let p := s.pattern i
  [s.versionField (patternBase + i * patternSize), num1 i, num1 p.onTime, num1 p.offTime, num1 p.duty, num1 p.repeats]

/-- The fields of an in-flight entry after its version count (R14). -/
def InFlight.fields (e : InFlight) : List (List Byte) :=
  [num1 e.slot, halfBytes e.take, num1 e.code, num1 e.target.ctorIdx, num1 e.index, leBytes 4 (clockLow e.start)]

/-- An in-flight position (R14). -/
def State.inFlightFields (s : State) (i : Nat) : List (List Byte) :=
  s.versionField (inFlightBase + i * inFlightSize) :: (s.orders.inFlight[i]?.map InFlight.fields).getD []

/-- An event log entry's bytes (Table 1-10). -/
def LogEntry.bytes (e : LogEntry) : List Byte :=
  leBytes 6 e.clock.toNat ++ num1 e.kind ++ num1 e.cls ++ leBytes 2 e.index ++ halfBytes e.a ++ halfBytes e.b
    ++ halfBytes e.seq

/-- An event log ring position: an append writes the entry whole (R21), so it counts as one field. -/
def State.logFields (s : State) (k : Nat) : List (List Byte) := (lookupAt s.port.log k).toList.map LogEntry.bytes

/-- The event log control words (R21, R22). -/
def State.logControlFields (s : State) : List (List Byte) :=
  [leBytes 4 s.port.written.toNat, leBytes 4 s.port.taken.toNat]

/-! ### The regions (Table 1-1) -/

/-- The byte at an offset of some bytes, 0 beyond them. -/
def byteOf (bs : List Byte) (off : Nat) : Byte := bs.getD off 0#8

/-- A standing region: where its entries stand, and the fields an entry shows. -/
structure Region where
  base : Nat
  size : Nat
  count : Nat
  fields : State → Nat → List (List Byte)

/-- An address lies in a region. -/
def Region.holds (r : Region) (a : Nat) : Bool := decide (r.base ≤ a) && decide (a < r.base + r.size * r.count)

/-- The standing regions of Table 1-1: all but the order board. -/
def regions : List Region :=
  [⟨summaryBase, summarySize, 1, fun s _ => s.summaryFields⟩,
   ⟨causeBase, 2, 16, fun s i => [halfBytes ((lookupAt s.port.causes i).getD 0)]⟩,
   ⟨logControlBase, 8, 1, fun s _ => s.logControlFields⟩,
   ⟨logBase, logEntrySize, logEntries, State.logFields⟩,
   ⟨headBase, headSize, 64, State.headFields⟩,
   ⟨channelBase, channelSize, channelCount, State.channelFields⟩,
   ⟨zoneBase, zoneSize, zoneCount, State.zoneFields⟩,
   ⟨rosterBase, rosterSize, rosterCount, State.rosterFields⟩,
   ⟨vehicleBase, vehicleSize, vehicleCount, State.vehicleFields⟩,
   ⟨encounterBase, encounterSize, encounterCount, State.encounterFields⟩,
   ⟨refugeBase, refugeSize, refugeCount, State.refugeFields⟩,
   ⟨escapeBase, escapeSize, zoneCount, State.escapeFields⟩,
   ⟨downlinkBase, downlinkSize, downlinkLists, State.downlinkFields⟩,
   ⟨patternBase, patternSize, 8, State.patternFields⟩,
   ⟨inFlightBase, inFlightSize, inFlightMax, State.inFlightFields⟩]

/-- The byte an exchange memory address holds, below the register window: Table 1-1; an address in no region reads 0
(R2). -/
def State.readByte (s : State) (a : Nat) : Byte :=
  if boardBase ≤ a ∧ a < boardBase + slotSize * slotCount then readMem s.port.board a
  else
    match regions.find? fun r => r.holds a with
    | some r => byteOf (r.fields s ((a - r.base) / r.size)).flatten ((a - r.base) % r.size)
    | none => 0#8

/-- The field that holds an offset, if the entry shows one there. -/
def fieldAt : List (List Byte) → Nat → Option (List Byte)
  | [], _ => none
  | f :: fs, off => if off < f.length then some f else fieldAt fs (off - f.length)

/-- A step from the one state to the other writes the byte at an address of a standing region: the field there changes, or only
one of the two shows a field there (R4). -/
def State.wrote (before after : State) (a : Nat) : Bool :=
  match regions.find? fun r => r.holds a with
  | some r =>
    let i := (a - r.base) / r.size
    let off := (a - r.base) % r.size
    !decide (fieldAt (r.fields before i) off = fieldAt (r.fields after i) off)
  | none => false

/-- The word of a register of the window; addresses that hold no register read 0 (R7). -/
def State.readRegister (s : State) (a : Nat) : Half :=
  if a = identAddr then BitVec.ofNat 16 ident
  else if a = stateAddr then s.stateRegister
  else if a = noticeAddr then s.port.notice
  else if a = noticeEnableAddr then s.port.enable
  else 0#16

/-- The word the host sees at an even address now: a register, 0 in BOOT (R1), or two bytes of exchange memory. -/
def State.hostWord (s : State) (a : Nat) : Half :=
  if registerBase ≤ a then s.readRegister a
  else if s.supply.phase = .boot then 0#16
  else BitVec.ofNat 16 ((s.readByte a).toNat + 256 * (s.readByte (a + 1)).toNat)

end Sys2Proof.Machine
end

