-- ==== Sys2Proof/Machine/Alarm.lean ====
section
/-! DEFINITION. The Alarm Output Unit: patterns, sounder choices, the district condition, play and contacts (Chapter 10),
and the entry to HALTED, which it and every other block makes together. -/

namespace Sys2Proof.Machine

open Sys2Proof.Config

/-- The condition map: the pattern of a zone condition, silence for NORMAL (R168). -/
def Policy.patternFor (p : Policy) : ZoneCondition → Option Nat
  | .normal => none
  | .fault => some p.patFault
  | .warn => some p.patWarn
  | .alarm => some p.patAlarm
  | .trip => some p.patTrip
  | .drill => some p.patDrill
  | .evacuate => some p.patEvacuate

/-- The choice R168 gives a zone now: silence while it is not in use. -/
def State.zonePattern (s : State) (z : Nat) : Option Nat :=
  let r := s.zoneRec z
  if r.inUse then s.supply.policy.patternFor r.condition else none

/-- The zone in use whose sounder list names a head (R169). -/
def State.sounderZone (s : State) (a : Nat) : Option Nat :=
  (s.zone.zones.find? fun p => p.2.inUse && p.2.sounders.contains a).map Prod.fst

/-- The four pattern bytes given to a SOUNDER head: on-time, off-time, tone duty with the sequence bit, repeat count; all 0
for silence (R169). -/
def State.sounderBytes (s : State) (a : Nat) : Nat × Nat × Nat × Nat :=
  match s.sounderZone a with
  | none => (0, 0, 0, 0)
  | some z =>
    match (s.choice z).pattern with
    | none => (0, 0, 0, 0)
    | some i =>
      let p := s.pattern i
      (p.onTime, p.offTime, p.duty + 128 * (s.choice z).seq.toNat, p.repeats)

/-- Marks for an interposed poll every ONLINE SOUNDER head whose bytes differ from those of the state before, while the
rates mode is RESERVE (R33, R169). -/
def State.markChanges (before s : State) : State :=
  if s.loop.rates = .reserve then
    let marked := (s.loop.heads.filter fun p =>
      p.2.configured && decide (p.2.kind = .sounder) && decide (p.2.link = .online)
        && !decide (before.sounderBytes p.1 = s.sounderBytes p.1)).map Prod.fst
    { s with loop.marks := marked.foldl insertNat s.loop.marks }
  else s

/-- Judges a zone's sounder choice, inverting the sequence bit on a change of condition or content (R168). -/
def State.setChoice (s : State) (z : Nat) (invert : Bool) : State :=
  { s with alarm.choices := storeAt s.alarm.choices z ⟨s.zonePattern z, (s.choice z).seq ^^ invert⟩ }

/-- The pattern the district play calls for in the present phase (R171). -/
def State.districtPattern (s : State) : Option Nat :=
  match s.supply.phase with
  | .boot => none
  | .setup | .running => s.supply.policy.patternFor s.alarm.district
  | .halted => some 7

/-- Restarts the district play: an on-phase with the count of cycles at 0; silence keeps both outputs off (R171). -/
def State.restartPlay (s : State) : State :=
  let p := s.districtPattern
  { s with alarm.play := { pattern := p, stage := if p.isSome then .on else .stopped, cycles := 0, since := s.now } }

/-- Restarts the district play if its pattern's index changed (R171). -/
def State.judgePlay (s : State) : State := if s.alarm.play.pattern = s.districtPattern then s else s.restartPlay

/-- The district condition R170 gives: the highest zone condition in use, at least FAULT while the loop is BROKEN. -/
def State.highestCondition (s : State) : ZoneCondition :=
  (s.zone.zones.filter fun p => p.2.inUse).foldl (fun c p => c.max p.2.condition)
    (if s.loop.state = .broken then .fault else .normal)

/-- Judges the district condition; a change is shown, logged and restarts the play (R170). -/
def State.judgeDistrict (s : State) : State :=
  let d := s.highestCondition
  let old := s.alarm.district
  if d = old then s
  else
    ((({ s with alarm.district := d } : State).bumpSummary).append 0x90 clsDistrict 0 old.ctorIdx d.ctorIdx).restartPlay

/-- OUT3 closed: RUNNING, no zone TRIPPED, loop WHOLE (R172). -/
def State.wantOut3 (s : State) : Bool :=
  s.running && (s.zone.zones.all fun p => !decide (p.2.trip = .tripped)) && decide (s.loop.state = .whole)

/-- OUT4 closed: RUNNING and no trip latch set (R172). -/
def State.wantOut4 (s : State) : Bool := s.running && s.supply.retained.latches.isEmpty

/-- Judges both contacts, OUT3 first; each change is logged (R172, R173). -/
def State.judgeContacts (s : State) : State :=
  let w3 := s.wantOut3
  let w4 := s.wantOut4
  let c3 := !decide (s.alarm.out3 = w3)
  let c4 := !decide (s.alarm.out4 = w4)
  (({ s with alarm.out3 := w3, alarm.out4 := w4 } : State).appendIf c3 0x91 clsDistrict 0 3 w3.toNat).appendIf c4 0x91
    clsDistrict 0 4 w4.toNat

/-- The hand-off of a zone to the Alarm Output Unit (R77): choice on a change of condition, the district condition, and the
contacts on a change of trip state or latch. -/
def State.alarmZone (s : State) (z : Nat) (condition contacts : Bool) : State :=
  let s1 := if condition then (State.markChanges s (s.setChoice z true)).judgeDistrict else s
  if contacts then s1.judgeContacts else s1

/-- Judges every zone's choice anew, in ascending number, with no change of condition (R168, the map). -/
def State.judgeAllChoices (s : State) : State :=
  State.markChanges s (forEach s.zonesInUse (fun z s => s.setChoice z false) s)

/-- The end of a cycle of the district play: the count rises; at a repeat count that is not 0 the play stops, otherwise the
next on-phase begins (R171). -/
def State.endCycle (s : State) (repeats : Nat) : State :=
  let n := s.alarm.play.cycles + 1
  let stop := !decide (repeats = 0) && decide (repeats ≤ n)
  { s with
    alarm.play :=
      { s.alarm.play with cycles := n, stage := if stop then .stopped else .on, since := s.now } }

/-- An on-phase or off-phase of the district play ends, when it is due (R171). -/
def State.playExpiry (s : State) : State :=
  match s.alarm.play.pattern with
  | none => s
  | some i =>
    let p := s.pattern i
    match s.alarm.play.stage with
    | .stopped => s
    | .on =>
      if s.due s.alarm.play.since (p.onTime * 10) then
        if p.offTime = 0 then s.endCycle p.repeats
        else { s with alarm.play := { s.alarm.play with stage := .off, since := s.now } }
      else s
    | .off => if s.due s.alarm.play.since (p.offTime * 10) then s.endCycle p.repeats else s

/-- A zone's relay command opens, in one record update (R89). -/
def State.openRelay (s : State) (z : Nat) : State :=
  let r := s.zoneRec z
  if r.closed then s.putZone z { r with closed := false, changed := s.stamp } else s

/-- Every relay command opens (R89), in ascending number. DESIGN CHOICE, log entry 64. -/
def State.openRelays (s : State) : State := forEach (keysOf s.zone.zones) (fun z s => s.openRelay z) s

/-- What stops in HALTED: the scan, the exchange in progress, blind grace, both contacts open, and no hand-off waits (R18, R29,
R89, R173). -/
def State.stopUnits (s : State) : State :=
  { s with
    orders.scanRunning := false
    loop.exchange := none
    zone.grace := []
    alarm.out3 := false
    alarm.out4 := false
    work := Work.none }

/-- The phase HALTED with its fatal code, shown in the summary block (R177). -/
def State.haltPhase (s : State) (code : FatalCode) : State :=
  ({ s with supply.fatal := code, supply.phase := .halted } : State).bumpSummary

/-- The entry to HALTED from SETUP or RUNNING with a fatal code; in another phase nothing changes, so a first code stands
(R6, R18, R29, R89, R173, R177). PHASE_CHANGE is logged where the log has room; then the scan ends, the exchange in
progress is abandoned, every relay command opens in one update of each zone, blind grace stops, pattern 7 plays and both
contacts open. DESIGN CHOICE, log entry 28. -/
def State.halt (s : State) (code : FatalCode) : State :=
  if s.active then
    let s1 := (s.haltPhase code).append 0xA1 clsDistrict 0 s.supply.phase.ctorIdx Phase.halted.ctorIdx
    s1.openRelays.flush.stopUnits.restartPlay
  else s

end Sys2Proof.Machine
end

