-- ==== Sys2Proof/Machine/HostPort.lean ====
section
/-! DEFINITION. The Exchange Port as the host sees it: reads and writes of exchange memory and of the register window, the
order board's protection, the event log's control words, and the two resets (Chapter 1, R179). -/

namespace Sys2Proof.Machine

open Sys2Proof.Config

/-- A step writes every byte of a field whose value it changes and of an event log entry it appends, so their check bits are
valid again (R4, R6, R21). DEDUCED, log entry 17. -/
def State.scrub (before s : State) : State :=
  if s.port.badBytes.isEmpty then s
  else { s with port.badBytes := s.port.badBytes.filter fun a => !State.wrote before s a }

/-- An event of a block in SETUP or RUNNING reads the state held inside the blocks: a check bit there that does not match leads
to HALTED with INTERNAL_CHECK instead (R177). -/
def State.checked (s : State) (f : State → State) : State :=
  if s.active && s.insideBad then State.scrub s (s.halt .internalCheck) else f s

/-! ### Reads -/

/-- A host read of the word at an even address: the word is driven on HD. A read of the written count's low half captures
its high half, and a read of the high half returns the capture and uses it up (R21). A check bit that does not match its
byte gives the byte as stored and EXCHANGE_FAULT (R6). -/
def State.hostRead (s : State) (addr : Half) : State :=
  let a := addr.toNat / 2 * 2
  if registerBase ≤ a then { s with port.hostData := s.readRegister a }
  else if s.supply.phase = .boot then { s with port.hostData := 0#16 }
  else
    let s1 : State :=
      if a = logControlBase then
        { s with
          port.hostData := s.hostWord a
          port.capture := some (BitVec.ofNat 16 (s.port.written.toNat / 65536)) }
      else if a = logControlBase + 2 then
        { s with port.hostData := s.port.capture.getD (s.hostWord a), port.capture := none }
      else { s with port.hostData := s.hostWord a }
    if s.port.badBytes.contains a || s.port.badBytes.contains (a + 1) then State.scrub s (s1.halt .exchangeFault) else s1

/-! ### Writes -/

/-- The low or high byte of a word. -/
def loByte (d : Half) : Byte := BitVec.ofNat 8 d.toNat
def hiByte (d : Half) : Byte := BitVec.ofNat 8 (d.toNat / 256)

/-- A word whose enabled bytes come from the data and whose other bytes stay (R1). -/
def mergeWord (old data : Half) (lo hi : Bool) : Half :=
  BitVec.ofNat 16 ((if lo then loByte data else loByte old).toNat + 256 * (if hi then hiByte data else hiByte old).toNat)

/-- Whether the host may write a value to an offset of a slot: EMPTY or POSTED to the hand-over field, anything to the
order code, host tag and arguments, nothing to the part's fields (R8, R9). -/
def hostMayWrite (off : Nat) (b : Byte) : Bool :=
  if off = 0 then decide (b = handEmpty) || decide (b = handPosted)
  else decide (off = 1) || (decide (6 ≤ off) && decide (off ≤ 55))

/-- A host write of one byte of the order board, with its check bit (R6, R8, R9). -/
def State.writeBoardByte (s : State) (a : Nat) (b : Byte) : State :=
  if hostMayWrite ((a - boardBase) % slotSize) b then
    { s with port.board := writeMem s.port.board a b, port.badBytes := removeNat s.port.badBytes a }
  else s

/-- A host write of the low half of the taken count: held, with no other effect yet (R22). DEDUCED, log entry 14. -/
def State.writeTakenLow (s : State) (data : Half) (lo hi : Bool) : State :=
  if lo || hi then
    { s with port.held := some (mergeWord (BitVec.ofNat 16 s.port.taken.toNat) data lo hi) }
  else s

/-- A host write of the high half of the taken count: forms the value, checks it against the backlog, and ends a full
episode when the backlog falls below 256 (R22, R23). -/
def State.writeTakenHigh (s : State) (data : Half) (lo hi : Bool) : State :=
  if lo || hi then
    let high := mergeWord (BitVec.ofNat 16 (s.port.taken.toNat / 65536)) data lo hi
    let low := s.port.held.getD (BitVec.ofNat 16 s.port.taken.toNat)
    let t : BitVec 32 := BitVec.ofNat 32 (high.toNat * 65536 + low.toNat)
    let taken := if (s.port.written - t).toNat ≤ s.backlog then t else s.port.written
    { s with
      port.taken := taken
      port.held := none
      port.fullEpisode := s.port.fullEpisode && decide (256 ≤ (s.port.written - taken).toNat)
      port.badBytes := s.port.badBytes.filter fun a => !(decide (logControlBase + 4 ≤ a) && decide (a < logControlBase + 8)) }
  else s

/-- A host write to NOTICE: each group bit written as 1 is cleared (R7, R20). -/
def State.writeNotice (s : State) (data : Half) (lo hi : Bool) : State :=
  { s with port.notice := s.port.notice &&& ~~~(mergeWord 0#16 data lo hi &&& groupMask) }

/-- A host write to NOTICE_ENABLE: the enables are held as written (R7, R20). -/
def State.writeNoticeEnable (s : State) (data : Half) (lo hi : Bool) : State :=
  { s with port.enable := mergeWord s.port.enable data lo hi &&& groupMask }

/-- A request for a board scan, in SETUP and RUNNING: starts one, or sets scan-pending while one runs (R10). -/
def State.beginScan (s : State) : State :=
  if s.active then
    if s.orders.scanRunning then { s with orders.scanPending := true }
    else
      { s with
        orders.scanRunning := true
        orders.next := (s.orders.scanPos + 1) % slotCount
        orders.left := slotCount }
  else s

/-- A request for a board scan is an event of the Order Unit (R10, R177). -/
def State.requestScan (s : State) : State := s.checked State.beginScan

/-- The retained block after a warm reset begins (R179): the cause becomes WARM and the count rises, saturating; a block that
fails its check bits is cleared and the reset recorded as COLD with the count 0. -/
def Retained.warm (r : Retained) : Retained :=
  if r.checkBad then Retained.cold else { r with cause := .warm, warmCount := min 65535 (r.warmCount + 1) }

/-- A warm reset (R179): BOOT is entered with the retained block and the mine clock kept. -/
def State.warmReset (s : State) : State :=
  State.boot s.supply.retained.warm s.supply.mineClock s.supply.in1.raw s.supply.in2.raw s.supply.in3.raw s.supply.in4.raw
    s.pending

/-- A cold reset (R179): BOOT is entered with everything cleared. -/
def State.coldReset (s : State) : State :=
  State.boot Retained.cold 0 s.supply.in1.raw s.supply.in2.raw s.supply.in3.raw s.supply.in4.raw s.pending

/-- A host write to CONTROL: 1 asks for a scan, 2 starts a warm reset, other values are ignored (R7). DEDUCED, log entry 15. -/
def State.writeControl (s : State) (data : Half) (lo hi : Bool) : State :=
  let v := mergeWord 0#16 data lo hi
  if v = 1#16 then s.requestScan else if v = 2#16 then s.warmReset else s

/-- A host write in the register window (R2, R7): IDENT, STATE and addresses without a register ignore it. -/
def State.writeRegister (s : State) (a : Nat) (data : Half) (lo hi : Bool) : State :=
  if a = noticeAddr then s.writeNotice data lo hi
  else if a = noticeEnableAddr then s.writeNoticeEnable data lo hi
  else if a = controlAddr then s.writeControl data lo hi
  else s

/-- A host write of the word at an even address, byte by byte as enabled: stored only where the region map and the slot
fields let the host write, and discarded elsewhere and in BOOT (R1, R2, R8). -/
def State.hostWrite (s : State) (addr data : Half) (lo hi : Bool) : State :=
  let a := addr.toNat / 2 * 2
  if registerBase ≤ a then s.writeRegister a data lo hi
  else if s.supply.phase = .boot then s
  else if boardBase ≤ a ∧ a < boardBase + slotSize * slotCount then
    let s1 := if lo then s.writeBoardByte a (loByte data) else s
    if hi then s1.writeBoardByte (a + 1) (hiByte data) else s1
  else if a = logControlBase + 4 then s.writeTakenLow data lo hi
  else if a = logControlBase + 6 then s.writeTakenHigh data lo hi
  else s

/-! ### The commands of the host port -/

/-- HOST_MEMORY_READ (R1, R6). -/
def execHostMemoryRead (addr : Half) (s : State) : Host.Outcome State Fault Refusal := .next (s.hostRead addr)

/-- HOST_MEMORY_WRITE (R1, R2, R8). -/
def execHostMemoryWrite (addr data : Half) (lo hi : Bool) (s : State) : Host.Outcome State Fault Refusal :=
  .next (s.hostWrite addr data lo hi)

/-- HAND_OVER_WRITE (R9): a write to the word that holds a slot's hand-over field and order code. -/
def execHandOverWrite (slot : Nat) (data : Half) (lo hi : Bool) (s : State) : Host.Outcome State Fault Refusal :=
  .next (if slot < slotCount then s.hostWrite (BitVec.ofNat 16 (slotAddr slot 0)) data lo hi else s)

/-- WRITTEN_COUNT_READ (R21). -/
def execWrittenCountRead (s : State) : Host.Outcome State Fault Refusal :=
  .next (s.hostRead (BitVec.ofNat 16 logControlBase))

/-- TAKEN_COUNT_WRITE (R22, R23): of the low half or the high half. -/
def execTakenCountWrite (high : Bool) (data : Half) (lo hi : Bool) (s : State) : Host.Outcome State Fault Refusal :=
  .next (s.hostWrite (BitVec.ofNat 16 (logControlBase + if high then 6 else 4)) data lo hi)

/-- NOTICE_WRITE (R20). -/
def execNoticeWrite (data : Half) (lo hi : Bool) (s : State) : Host.Outcome State Fault Refusal :=
  .next (s.writeNotice data lo hi)

/-- NOTICE_ENABLE_WRITE (R20). -/
def execNoticeEnableWrite (data : Half) (lo hi : Bool) (s : State) : Host.Outcome State Fault Refusal :=
  .next (s.writeNoticeEnable data lo hi)

/-- SCAN (R10): CONTROL written with SCAN. -/
def execScan (s : State) : Host.Outcome State Fault Refusal := .next s.requestScan

/-- RESTART (R179): CONTROL written with RESTART, in any phase. -/
def execRestart (s : State) : Host.Outcome State Fault Refusal := .next s.warmReset

/-- REGISTER_WRITE (R7): a write in the register window; what holds no writable bit ignores it. -/
def execRegisterWrite (addr data : Half) (lo hi : Bool) (s : State) : Host.Outcome State Fault Refusal :=
  let a := addr.toNat / 2 * 2
  .next (if registerBase ≤ a then s.writeRegister a data lo hi else s)

/-- COLD_RESET (R179). -/
def execColdReset (s : State) : Host.Outcome State Fault Refusal := .next s.coldReset

/-- SUMMARY_CLOCK_REFRESH (R5): every 10 ms of run time, from entry to SETUP on, the summary block's clocks take the
present values in one record update. DEDUCED, log entry 27. -/
def execSummaryClockRefresh (s : State) : Host.Outcome State Fault Refusal :=
  .next
    (if !decide (s.supply.phase = .boot) && s.due s.port.refreshAt refreshPeriod then
      s.checked fun s => State.scrub s (({ s with
        port.shownMine := s.supply.mineClock
        port.shownRun := s.supply.runTime
        port.refreshAt := s.now } : State).bumpNow summaryBase)
    else s)

/-- PLAY_PHASE_EXPIRY (R171). -/
def execPlayPhaseExpiry (s : State) : Host.Outcome State Fault Refusal := .next (s.checked State.playExpiry)

/-- SCAN_TIMER_EXPIRY (R10): every 20 ms of run time from entry to SETUP on, in SETUP and RUNNING. -/
def execScanTimerExpiry (s : State) : Host.Outcome State Fault Refusal :=
  .next
    (if s.active && s.due s.orders.scanAt scanPeriod then
      s.checked fun s => ({ s with orders.scanAt := s.orders.scanAt + BitVec.ofNat 48 scanPeriod } : State).beginScan
    else s)

end Sys2Proof.Machine
end

