-- ==== Sys2Proof/Machine/Conditions.lean ====
section
/-! DEFINITION. Conditions and the downlink entries that carry them (R118, R120 to R122), and the end report of a long order
(R15). -/

namespace Sys2Proof.Machine

open Sys2Proof.Config

/-! ### Conditions (R118) -/

/-- The condition a tag has of a kind. -/
def State.condition? (s : State) (ref : TagRef) (k : DownKind) : Option Condition :=
  s.people.conditions.find? fun c => decide (c.ref = ref) && decide (c.kind = k)

/-- Changes every entry of every downlink list, each changed list in one record update. -/
def State.mapEntries (s : State) (f : DownEntry → DownEntry) : State :=
  s.people.lists.foldl (fun s p => s.putList p.1 { p.2 with entries := p.2.entries.map f }) s

/-- Marks the list entries whose condition ends; what the lists show stays (R118). -/
def State.markEnded (s : State) (p : DownEntry → Bool) : State :=
  { s with
    people.lists := s.people.lists.map fun l =>
      (l.1, { l.2 with entries := l.2.entries.map fun e => if p e then { e with ended := true } else e }) }

/-- An entry that stands for a tag's condition of a kind. -/
def DownEntry.isFor (e : DownEntry) (ref : TagRef) (k : DownKind) : Bool :=
  !e.ended && decide (e.ref = ref) && decide (e.kind = k)

/-- Asserts a condition (R118): a new one with the run time as its creation time; or, where one stands with other content,
a replacement that keeps the creation time, clears the acknowledged mark, and gives its list entry the new content with
delivery count 0 and no sent mark. The same content changes nothing. -/
def State.assertCond (s : State) (ref : TagRef) (k : DownKind) (code target next : Nat) : State :=
  match s.condition? ref k with
  | none =>
    { s with
      people.conditions := s.people.conditions ++
        [{ ref := ref, kind := k, code := code, target := target, next := next, created := s.now, acked := false }] }
  | some c =>
    if c.code = code ∧ c.target = target ∧ c.next = next then s
    else
      let s1 : State := { s with
        people.conditions := s.people.conditions.map fun d =>
          if d.ref = ref ∧ d.kind = k then { d with code := code, target := target, next := next, acked := false } else d }
      s1.mapEntries fun e =>
        if e.isFor ref k then
          { e with code := code, target := target, next := next, count := 0, sent := false }
        else e

/-- Ends a condition: it is removed, and its list entry waits for the next refill (R118). -/
def State.endCond (s : State) (ref : TagRef) (k : DownKind) : State :=
  ({ s with
      people.conditions := s.people.conditions.filter fun c => !(decide (c.ref = ref) && decide (c.kind = k)) } :
    State).markEnded fun e => decide (e.ref = ref) && decide (e.kind = k)

/-- Ends every condition of a tag (R109, R118). -/
def State.endAllConds (s : State) (ref : TagRef) : State :=
  ({ s with people.conditions := s.people.conditions.filter fun c => !decide (c.ref = ref) } : State).markEnded fun e =>
    decide (e.ref = ref)

/-- Marks a condition acknowledged (R119). -/
def State.ackCond (s : State) (ref : TagRef) (k : DownKind) : State :=
  { s with
    people.conditions := s.people.conditions.map fun c =>
      if c.ref = ref ∧ c.kind = k then { c with acked := true } else c }

/-- The delivery count of a condition's list entry, 0 where no list holds one (R119, R120). -/
def State.deliveries (s : State) (ref : TagRef) (k : DownKind) : Nat :=
  match (s.people.lists.flatMap fun p => p.2.entries).find? fun e => e.isFor ref k with
  | some e => e.count
  | none => 0

/-! ### Refill of a reader's list (R121) -/

/-- The tag id and last reader a condition's tag has now; none where the entry is not in use. -/
def State.tagOf (s : State) : TagRef → Option (Nat × Option Nat)
  | .miner i => (s.miner? i).map fun m => (m.tag, m.lastReader)
  | .vehicle i => (s.vehicle? i).map fun v => (v.tag, v.lastReader)

/-- List order: higher priority, then older creation time (run times are compared as ages), then lower tag id (R120). -/
def State.entryBefore (s : State) (x y : DownEntry) : Bool :=
  if x.kind.code = y.kind.code then
    if elapsed s.now x.created = elapsed s.now y.created then decide (x.tag < y.tag)
    else decide (elapsed s.now y.created < elapsed s.now x.created)
  else decide (y.kind.code < x.kind.code)

/-- Puts an entry in its place in a list. -/
def State.insertEntry (s : State) (x : DownEntry) : List DownEntry → List DownEntry
  | [] => [x]
  | y :: ys => if s.entryBefore x y then x :: y :: ys else y :: s.insertEntry x ys

/-- Places the waiting conditions one at a time, in list order (step 3 of R121): into room, or in place of the youngest
entry of the lowest priority when that priority is lower; the first that finds neither ends the placing. Of several youngest the
last in list order is evicted. DESIGN CHOICE, log entry 67. -/
def State.placeEntries (s : State) : List DownEntry → List DownEntry → List DownEntry
  | [], l => l
  | x :: xs, l =>
    if l.length < downlinkMax then s.placeEntries xs (s.insertEntry x l)
    else
      match l.getLast? with
      | some y => if y.kind.code < x.kind.code then s.placeEntries xs (s.insertEntry x l.dropLast) else l
      | none => l

/-- The entry that stands for a condition in a list other than the reader's own, with its delivery count. -/
def State.entryElsewhere (s : State) (own : Nat) (c : Condition) : Option DownEntry :=
  ((s.people.lists.filter fun p => !decide (p.1 = own)).flatMap fun p => p.2.entries).find? fun e =>
    e.isFor c.ref c.kind

/-- The standing, unacknowledged conditions whose tag's last reader is the reader and which the entries do not hold, as
entries to place: one taken from another list keeps its delivery count, a new one has 0 (R121). One whose entry was evicted, or left
its list as departed or with a freed list, counts as new. DESIGN CHOICE, log entry 19. -/
def State.toPlace (s : State) (own reader : Nat) (held : List DownEntry) : List DownEntry :=
  (s.people.conditions.filterMap fun c =>
    match s.tagOf c.ref with
    | some (tag, some r) =>
      if r = reader ∧ !c.acked ∧ !(held.any fun e => decide (e.ref = c.ref) && decide (e.kind = c.kind)) then
        let old := s.entryElsewhere own c
        some
          { ref := c.ref, tag := tag, kind := c.kind, code := c.code, target := c.target, next := c.next,
            created := c.created, count := (old.map (·.count)).getD 0, sent := false,
            ended := false, lastReader := old.bind (·.lastReader) }
      else none
    | _ => none).foldl (fun l x => s.insertEntry x l) []

/-- The refill of the list in a position (R121): ended or acknowledged entries and departed tags' entries leave, waiting
conditions are placed, and the first entries are given the sent mark (R122). The conditions placed here are taken out of
the lists they stood in. A refill that changes nothing is no record update: DEDUCED, log entry 69. -/
def State.refill (s : State) (pos : Nat) : State :=
  match lookupAt s.people.lists pos with
  | none => s
  | some l =>
    let standing := l.entries.filter fun e =>
      match s.condition? e.ref e.kind, s.tagOf e.ref with
      | some c, some (_, some r) => !e.ended && !c.acked && decide (r = l.reader)
      | _, _ => false
    let filled := s.placeEntries (s.toPlace pos l.reader standing) standing
    let marked := (filled.take carriedMax).map (fun e => { e with sent := true })
      ++ (filled.drop carriedMax).map fun e => { e with sent := false }
    let s1 := (s.people.lists.filter fun p => !decide (p.1 = pos)).foldl
      (fun s p => s.putList p.1 { p.2 with entries := p.2.entries.filter fun e =>
        e.ended || !(filled.any fun x => decide (x.ref = e.ref) && decide (x.kind = e.kind)) }) s
    s1.putList pos { l with entries := marked }

/-- The list position of a configured reader (R120). -/
def State.listPosition (s : State) (reader : Nat) : Option Nat :=
  (s.people.lists.find? fun p => decide (p.2.reader = reader)).map Prod.fst

/-- Clears the sent marks of a reader's list when its exchange ends with no valid reply (R122); no record update, for the marks are
held inside (R120). DEDUCED, log entry 69. -/
def State.clearSent (s : State) (reader : Nat) : State :=
  { s with
    people.lists := s.people.lists.map fun p =>
      if p.2.reader = reader then (p.1, { p.2 with entries := p.2.entries.map fun e => { e with sent := false } }) else p }

/-- The lowest list position with no reader (R120). -/
def State.freePosition (s : State) : Nat :=
  ((List.range downlinkLists).find? fun r => (lookupAt s.people.lists r).isNone).getD downlinkLists

/-- A reader is given the lowest free list position (R120). -/
def State.assignPosition (s : State) (reader : Nat) : State := s.putList s.freePosition { reader := reader, entries := [] }

/-- A reader's position is freed and its list emptied; the conditions stand (R120). -/
def State.freeReader (s : State) (reader : Nat) : State :=
  match s.listPosition reader with
  | none => s
  | some pos =>
    ({ s with people.lists := dropAt s.people.lists pos } : State).bump (downlinkBase + pos * downlinkSize)

/-! ### End of a long order (R15) -/

/-- The in-flight entry of an order code with a target. -/
def State.inFlight? (s : State) (code : Nat) (t : TargetKind) (index : Nat) : Option InFlight :=
  s.orders.inFlight.find? fun e => decide (e.code = code) && decide (e.target = t) && decide (e.index = index)

/-- The Order Unit handles an end report in one step (R15): a slot still waiting takes the result, DONE and ORDER_ENDED;
otherwise the result is discarded, ORDER_ORPHANED raised and ORPHAN logged. The entry leaves the list. A check bit of the
slot's hand-over or take number that does not match leads to HALTED instead (R6), and in HALTED no report is handled
(R18). -/
def State.endEntry (s : State) (e : InFlight) (r : OrderResult) (q : Nat) (vals : List Byte) : State :=
  if !s.active then s
  else if [0, 2, 3].any fun off => s.port.badBytes.contains (slotAddr e.slot off) then s.halt .exchangeFault
  else
    let s1 :=
      if s.handOver e.slot = handTaken ∧ s.slotTake e.slot = e.take then s.writeDone e.slot r q vals
      else (s.raise .orderOrphaned).append 0x01 clsOrder e.slot e.take.toNat (e.code * 256 + r.ctorIdx)
    s1.putInFlight (s1.orders.inFlight.filter fun x => !decide (x = e))

/-- The owning block reports the end of the long order it holds on a target (R15); the Order Unit handles the report at the
end of the event. DEDUCED, log entry 43. -/
def State.endOrder (s : State) (code : Nat) (t : TargetKind) (index : Nat) (r : OrderResult) (q : Nat)
    (vals : List Byte) : State :=
  { s with
    work.ends := s.work.ends ++
      [{ code := code, target := t, index := index, result := r, qualifier := q, values := vals }] }

/-- The Order Unit takes an end report (R15). -/
def State.takeEnd (s : State) (x : EndReport) : State :=
  match s.inFlight? x.code x.target x.index with
  | some e => s.endEntry e x.result x.qualifier x.values
  | none => s

end Sys2Proof.Machine
end

