-- ==== Sys2Proof/Machine/VehicleCore.lean ====
section
/-! DEFINITION. Haul vehicles: command components, conditions, encounter evaluation and news (R129 to R140). The events that
change them are in the files after the zone evaluation. -/

namespace Sys2Proof.Machine

open Sys2Proof.Config

/-! ### Components (Table 7-1) -/

/-- The command a tripped zone gives a vehicle of a drive kind (R131). -/
def DriveKind.tripCommand : DriveKind → Command
  | .diesel => .withdraw
  | .electric => .stop

/-- The effective command: the strongest component (R130). -/
def Vehicle.strongest (v : Vehicle) : Command :=
  ((((v.host.max v.zoneCmd).max v.encounterCmd).max v.evacCmd).max v.onboardCmd).max v.crowdedCmd

/-- A vehicle's record with every component but the host's as Table 7-1 gives it now, and the effective command. -/
def State.withComponents (s : State) (i : Nat) (v : Vehicle) : Vehicle :=
  let placed := decide (v.state = .present) || decide (v.state = .lost)
  let inTrip := match v.zone with
    | some z => s.haul.tripped.contains z
    | none => false
  let w : Vehicle :=
    { v with
      zoneCmd := if placed && inTrip then v.drive.tripCommand else .none
      encounterCmd := if s.haul.encounters.any fun e => decide (e.vehicle = i) then .slow else .none
      evacCmd := if s.evac.vehicleFlag then .withdraw else .none
      onboardCmd := if placed && decide (s.supply.policy.onboardLimit ≤ v.onboard) then .stop else .none
      crowdedCmd := if v.crowded then .slow else .none }
  { w with effective := w.strongest }

/-- The event asserts, replaces or ends the vehicle's VEHICLE_COMMAND condition (R133, R134). -/
def State.commandTurns (s : State) (i : Nat) (v : Vehicle) : Bool :=
  match s.condition? (.vehicle i) .vehicleCommand with
  | some c => decide (v.effective = v.acked) || !decide (c.code = v.effective.ctorIdx)
  | none => !decide (v.effective = v.acked)

/-- A vehicle's record as an event leaves it: components, effective command, and the unacked poll count at 0 when the event
asserts, replaces or ends the condition (R130, R134). -/
def State.dressVehicle (s : State) (i : Nat) (v : Vehicle) : Vehicle :=
  let w := s.withComponents i v
  { w with unacked := if s.commandTurns i w then 0 else w.unacked }

/-- Judges the VEHICLE_COMMAND condition of a vehicle (R133). -/
def State.judgeCommand (s : State) (i : Nat) : State :=
  match s.vehicle? i with
  | some v =>
    if v.effective = v.acked then s.endCond (.vehicle i) .vehicleCommand
    else s.assertCond (.vehicle i) .vehicleCommand v.effective.ctorIdx absent8 absent8
  | none => s.endCond (.vehicle i) .vehicleCommand

/-- Judges the VEHICLE_NEAR condition of a miner from the oldest listed entry naming it (R138). -/
def State.judgeNear (s : State) (m : Nat) : State :=
  match s.haul.encounters.find? fun e => decide (e.miner = m) with
  | some e =>
    s.assertCond (.miner m) .vehicleNear (((s.vehicle? e.vehicle).map (·.number)).getD 0) e.zone absent8
  | none => s.endCond (.miner m) .vehicleNear

/-! ### Encounter evaluation (R135 to R137) -/

/-- The zone of a vehicle whose pair with a miner qualifies (R135); none when it does not. -/
def State.pairZone (s : State) (v : Vehicle) (m : Miner) : Option Nat :=
  if v.state = .present ∧ v.moving ∧ m.state = .present then
    match v.zone, m.zone with
    | some zv, some zm => if zm = zv ∨ (s.zoneRec zv).neighbours.contains zm then some zv else none
    | _, _ => none
  else none

/-- Judges the listed entries an evaluation takes: a qualifying pair has miss 0 and its zone brought up to date, another one
miss more, and leaves at 2 (R136). -/
def judgeListed (taken : Encounter → Bool) (zoneOf : Encounter → Option Nat) (l : List Encounter) : List Encounter :=
  l.filterMap fun e =>
    if taken e then
      match zoneOf e with
      | some z => some { e with zone := z, miss := 0 }
      | none => if 2 ≤ e.miss + 1 then none else some { e with miss := e.miss + 1 }
    else some e

/-- Appends the unlisted qualifying pairs while there is room; the second part holds those left out (R136). -/
def appendPairs (created : Nat) : List (Nat × Nat × Nat) → List Encounter → List Encounter × List (Nat × Nat)
  | [], l => (l, [])
  | (v, m, z) :: ps, l =>
    if l.length < encounterCount then
      appendPairs created ps (l ++ [{ vehicle := v, miner := m, zone := z, created := created, miss := 0 }])
    else
      let (l', left) := appendPairs created ps l
      (l', (v, m) :: left)

/-- A pair is listed. -/
def listed (l : List Encounter) (v m : Nat) : Bool := l.any fun e => decide (e.vehicle = v) && decide (e.miner = m)

/-- Vehicle evaluation of vehicle `i` with the record given: the list it leaves and the pairs left out. -/
def State.vehicleEvaluation (s : State) (i : Nat) (v : Vehicle) : List Encounter × List (Nat × Nat) :=
  let l := judgeListed (fun e => decide (e.vehicle = i))
    (fun e => (s.miner? e.miner).bind fun m => s.pairZone v m) s.haul.encounters
  appendPairs s.stamp
    (s.people.roster.filterMap fun p =>
      if listed l i p.1 then none else (s.pairZone v p.2).map fun z => (i, p.1, z)) l

/-- Miner evaluation of roster entry `i`: the list it leaves and the pairs left out. -/
def State.minerEvaluation (s : State) (i : Nat) (m : Miner) : List Encounter × List (Nat × Nat) :=
  let l := judgeListed (fun e => decide (e.miner = i))
    (fun e => (s.vehicle? e.vehicle).bind fun v => s.pairZone v m) s.haul.encounters
  appendPairs s.stamp
    (s.haul.vehicles.filterMap fun p =>
      if listed l p.1 i then none else (s.pairZone p.2 m).map fun z => (p.1, i, z)) l

/-! ### News (R140) -/

/-- The fields whose change raises VEHICLE_STATE. -/
def Vehicle.newsworthy (v : Vehicle) : Vehicle :=
  { v with number := 0, drive := .diesel, strength := 0, lastSeen := none, lastReader := none, speed := 0, onboard := 0,
           unacked := 0 }

/-- A state and zone as an event value; 0xFFFF for an entry not in use. -/
def sideOf (o : Option (Nat × Option Nat)) : Nat :=
  match o with
  | some (st, z) => st * 256 + orFF z
  | none => 0xFFFF

def Vehicle.side (o : Option Vehicle) : Nat := sideOf (o.map fun v => (v.state.ctorIdx, v.zone))

/-- The entry was in use, is in use, and holds another tag: it was restarted (R126). -/
def vehicleRestarted (before after : Option Vehicle) : Bool :=
  match before, after with
  | some b, some a => !decide (b.tag = a.tag)
  | _, _ => false

/-- VEHICLE_STATE_CHANGE for a change of state or zone and for entries coming into or leaving use; a restart shows both. -/
def State.logVehicleSide (s : State) (i : Nat) (b a : Option Vehicle) : State :=
  if vehicleRestarted b a then
    (s.append 0x60 clsVehicle i (Vehicle.side b) 0xFFFF).append 0x60 clsVehicle i 0xFFFF (Vehicle.side a)
  else s.appendIf (!decide (Vehicle.side b = Vehicle.side a)) 0x60 clsVehicle i (Vehicle.side b) (Vehicle.side a)

/-- ONBOARD_GAS for a change of the onboard component; none for a vehicle that leaves use. DESIGN CHOICE, log entry 58. -/
def State.logOnboard (s : State) (i : Nat) (b a : Option Vehicle) : State :=
  match a with
  | none => s
  | some v =>
    let old := if vehicleRestarted b a then Command.none else (b.map (·.onboardCmd)).getD .none
    s.appendIf (!decide (old = v.onboardCmd)) 0x61 clsVehicle i v.onboardCmd.ctorIdx v.onboard

/-- VEHICLE_COMMAND_CHANGE for a change of the effective command. DESIGN CHOICE, log entry 21; none for a vehicle that leaves
use. DESIGN CHOICE, log entry 58. -/
def State.logCommand (s : State) (i : Nat) (b a : Option Vehicle) : State :=
  match a with
  | none => s
  | some v =>
    let old := if vehicleRestarted b a then Command.none else (b.map (·.effective)).getD .none
    s.appendIf (!decide (old = v.effective)) 0x62 clsVehicle i old.ctorIdx v.effective.ctorIdx

/-- ENCOUNTER_OVERFLOW for a rise of the crowded flag, with the first pair left out. -/
def State.logOverflow (s : State) (i : Nat) (b a : Option Vehicle) (left : List (Nat × Nat)) : State :=
  let was := (b.map (·.crowded)).getD false
  let is := (a.map (·.crowded)).getD false
  match left.find? fun p => decide (p.1 = i) with
  | some p => s.appendIf (is && !was) 0x64 clsVehicle i encounterCount p.2
  | none => s

/-- What follows the record updates of the vehicles `ids` in one event (R127): the middle hand-offs given, VEHICLE_NEAR,
VEHICLE_COMMAND, the causes and the events in the order of Table 7-2. `s0` is the state before the event's change to the
Vehicle Unit's tables, `s1` the state after it. DEDUCED, log entry 40. Each part of an event that changes commands logs its
own changes. DESIGN CHOICE, log entry 59. -/
def State.settleVehicles (s0 s1 : State) (ids : List Nat) (left : List (Nat × Nat)) (mid : State → State) : State :=
  let each (f : State → Nat → Option Vehicle → Option Vehicle → State) (s : State) : State :=
    forEach ids (fun i s => f s i (s0.vehicle? i) (s1.vehicle? i)) s
  let named := (s0.haul.encounters ++ s1.haul.encounters).map (·.miner)
  let near := forEach named (fun m s => s.judgeNear m) (mid s1)
  let commanded := each (fun s i b a =>
    (if vehicleRestarted b a then s.endCond (.vehicle i) .vehicleCommand else s).judgeCommand i) near
  let raised := each (fun s i b a =>
    s.raiseOnceIf (!decide (b.map Vehicle.newsworthy = a.map Vehicle.newsworthy)) .vehicleState i) commanded
  let s2 := raised.raiseOnceIf (!decide (s0.haul.encounters = s1.haul.encounters)) .encounter 0
  let s3 := each (fun s i b a => s.logVehicleSide i b a) s2
  let s4 := each (fun s i b a => s.logOnboard i b a) s3
  let s5 := each (fun s i b a => s.logCommand i b a) s4
  each (fun s i b a => s.logOverflow i b a left) s5

/-! ### Changes of components alone -/

/-- The indices of the vehicles in use, ascending. -/
def State.vehicleIds (s : State) : List Nat := keysOf s.haul.vehicles

/-- Brings one vehicle's components up to date, in one record update. -/
def State.redressVehicle (s : State) (i : Nat) : State :=
  match s.vehicle? i with
  | some v => s.putVehicle i (s.dressVehicle i v)
  | none => s

/-- Brings every vehicle's components up to date in one event, in ascending index, each in its own record update (R129, R130,
R131); what follows stands in the order of R127 and of Table 7-2. -/
def State.refreshVehicles (s : State) : State :=
  State.settleVehicles s (forEach s.vehicleIds (fun i s => s.redressVehicle i) s) s.vehicleIds [] id

/-- The Vehicle Unit is told that a zone has tripped (R131). -/
def State.vehicleTrip (s : State) (z : Nat) : State :=
  ({ s with haul.tripped := insertNat s.haul.tripped z } : State).refreshVehicles

/-- The Vehicle Unit is told that a zone's trip has cleared (R131). -/
def State.vehicleClear (s : State) (z : Nat) : State :=
  ({ s with haul.tripped := removeNat s.haul.tripped z } : State).refreshVehicles

/-- The Vehicle Unit is given the vehicle flag of the Evacuation Unit (R130). -/
def State.giveVehicleFlag (s : State) (flag : Bool) : State :=
  if s.evac.vehicleFlag = flag then s else ({ s with evac.vehicleFlag := flag } : State).refreshVehicles

/-- The encounter list takes new contents and the vehicles concerned their components, with the crowded flags of the pairs
left out set: the whole of a miner evaluation (R135 to R138). -/
def State.takeEvaluation (s : State) (list : List Encounter) (left : List (Nat × Nat)) : State :=
  let s1 := s.putEncounters list
  let s2 := forEach s.vehicleIds
    (fun i s => match s.vehicle? i with
      | some v =>
        s.putVehicle i (s.dressVehicle i { v with crowded := v.crowded || left.any fun p => decide (p.1 = i) })
      | none => s) s1
  State.settleVehicles s s2 s.vehicleIds left id

/-- A miner evaluation of a roster entry in use (R135). -/
def State.minerEncounters (s : State) (i : Nat) : State :=
  match s.miner? i with
  | some m =>
    let (list, left) := s.minerEvaluation i m
    s.takeEvaluation list left
  | none => s

/-- A roster entry left use or was restarted: its encounter entries are removed at once (R137). -/
def State.dropMinerEncounters (s : State) (i : Nat) : State :=
  s.takeEvaluation (s.haul.encounters.filter fun e => !decide (e.miner = i)) []

/-- The Vehicle Unit takes a report of a roster entry: the entries of one that left use or was restarted are removed (R137), and
one in use is evaluated (R135). -/
def State.takeMeet (s : State) (i : Nat) (gone : Bool) : State :=
  (if gone then s.dropMinerEncounters i else s).minerEncounters i

/-- The vehicle count of a zone in use, written in its record when it has changed (R128). -/
def State.countVehicles (s : State) (z : Nat) : State :=
  let r := s.zoneRec z
  let n := (s.haul.vehicles.filter fun p => decide (p.2.state = .present) && decide (p.2.zone = some z)).length
  if r.inUse then s.putZoneAs .vehicle z { r with vehicles := n } else s

end Sys2Proof.Machine
end

