-- ==== Sys2Proof/Machine/ZoneEval.lean ====
section
/-! DEFINITION. The zone evaluation: aggregates, cover, trips, relay command, air, condition, hand-offs and news (R75 to R90),
with the People Unit's part of a trip (R82, R111). -/

namespace Sys2Proof.Machine

open Sys2Proof.Config

/-! ### Aggregates (R75) -/

/-- The channels in use that name a zone. -/
def State.zoneChannels (s : State) (z : Nat) : List Channel :=
  (s.air.channels.filter fun p => decide (p.2.zone = some z)).map Prod.snd

/-- The aggregates of one kind over a zone's channels. -/
def State.aggregate (s : State) (z : Nat) (k : ChannelKind) : Aggregate :=
  let cs := (s.zoneChannels z).filter fun c => decide (c.kind = k)
  let hs := cs.filter s.healthy
  { configured := cs.length
    healthy := hs.length
    highest := hs.foldl (fun n c => max n c.level) 0
    atL3 := (hs.filter fun c => decide (c.level = 3)).length }

/-- The aggregates of a kind as a zone record holds them. -/
def Zone.agg (r : Zone) : ChannelKind → Aggregate
  | .ch4 => r.ch4
  | .co => r.co
  | .o2 => r.o2
  | .airvel => r.airvel

/-- The record with its aggregates rebuilt; those of an entry not in use stay inside the part (R71). -/
def State.withAggregates (s : State) (z : Nat) (r : Zone) : Zone :=
  if r.inUse then
    { r with ch4 := s.aggregate z .ch4, co := s.aggregate z .co, o2 := s.aggregate z .o2, airvel := s.aggregate z .airvel }
  else r

/-! ### Judgements of one zone record -/

/-- Cover (R78); an entry not in use is NOT_COVERED. DESIGN CHOICE, log entry 51. -/
def Zone.isCovered (r : Zone) : Bool :=
  r.inUse && decide (1 ≤ r.ch4.healthy) && decide (min r.vote r.ch4.configured ≤ r.ch4.healthy)
    && decide (r.ch4.highest < 2)

/-- A vote of L3 among the healthy channels of a kind (R79, R86). -/
def Zone.voteMet (r : Zone) (a : Aggregate) : Bool :=
  decide (1 ≤ a.healthy) && decide (min r.vote a.healthy ≤ a.atL3)

/-- Healthy channels short of the vote: the comparison of admission and abort (R92, R93). -/
def Zone.shortOf (r : Zone) (k : ChannelKind) (healthy : Nat) : Bool :=
  decide (healthy < min r.vote (r.agg k).configured)

/-- The IN4 status is active and configured for the zone (R81). -/
def State.externalTrip (s : State) (z : Nat) : Bool := s.supply.in4.status && decide (s.supply.in4Zone = some z)

/-- What stage 2 leaves: trip state and cause, how blind grace ended (RECOVERED 0, EXPIRED 1, OTHER 2), whether it began, and
whether a trip or a change of cause is to be logged (R79 to R81). -/
structure TripStage where
  trip : TripState
  cause : Option TripCause
  graceEnd : Option Nat
  graceStart : Bool
  tripped : Bool
  deriving DecidableEq, Repr

/-- External trip (R81): judged first. -/
def State.stageExternal (s : State) (z : Nat) (r : Zone) (t : TripStage) : TripStage :=
  if s.externalTrip z && r.inUse then
    match t.trip with
    | .tripped => if t.cause = some .external then t else { t with cause := some .external, tripped := true }
    | .blindGrace =>
      { t with trip := .tripped, cause := some .external, graceEnd := some 2, tripped := true }
    | .normal => { t with trip := .tripped, cause := some .external, tripped := true }
  else t

/-- The end of blind grace (R80): the powered flag cleared, recovery, or the expiry. -/
def Zone.stageGraceEnd (r : Zone) (expired : Bool) (t : TripStage) : TripStage :=
  if t.trip = .blindGrace then
    if !r.powered then { t with trip := .normal, graceEnd := some 2 }
    else if 1 ≤ r.ch4.healthy then { t with trip := .normal, graceEnd := some 0 }
    else if expired then { t with trip := .tripped, cause := some .blind, graceEnd := some 1, tripped := true }
    else t
  else t

/-- The gas trip (R79). -/
def Zone.stageGas (r : Zone) (t : TripStage) : TripStage :=
  if r.powered && !decide (t.trip = .tripped) && r.voteMet r.ch4 then
    { t with trip := .tripped, cause := some .gas, tripped := true }
  else t

/-- The entry into blind grace, or the blind trip of a grace period of 0 (R80). -/
def Zone.stageGraceEntry (r : Zone) (closedBefore : Bool) (grace : Nat) (t : TripStage) : TripStage :=
  if r.powered && decide (t.trip = .normal) && closedBefore && decide (r.ch4.healthy = 0) then
    if grace = 0 then { t with trip := .tripped, cause := some .blind, tripped := true }
    else { t with trip := .blindGrace, graceStart := true }
  else t

/-- Stage 2 (R77): nothing is judged outside RUNNING or for an entry not in use. -/
def State.tripStage (s : State) (z : Nat) (r : Zone) (closedBefore expired : Bool) (t : TripStage) : TripStage :=
  if s.running && r.inUse then
    r.stageGraceEntry closedBefore s.supply.policy.blindGrace
      (r.stageGas (r.stageGraceEnd expired (s.stageExternal z r t)))
  else t

/-- Stage 3 (R83). -/
def State.relayClosed (s : State) (z : Nat) (r : Zone) : Bool :=
  r.powered && r.inUse && s.running && !s.latched z && !decide (r.trip = .tripped)
    && (r.covered || decide (r.trip = .blindGrace))

/-- Evac-gas (R86). -/
def Zone.hasEvacGas (r : Zone) : Bool := r.inUse && (r.voteMet r.co || r.voteMet r.o2)

/-- The mobile CH4 warning (R87). -/
def State.mobileWarning (s : State) (z : Nat) : Bool :=
  let ls := ((s.zoneChannels z).filter fun c => decide (c.kind = .ch4)).map (·.l1)
  match ls with
  | [] => false
  | l :: ls =>
    let threshold := ls.foldl min l
    s.haul.vehicles.any fun p =>
      decide (p.2.state = .present) && decide (p.2.zone = some z) && decide (threshold ≤ p.2.onboard)

/-- A circuit of the zone has a fault (R84). -/
def State.relayFaulty (s : State) (r : Zone) : Bool :=
  s.zone.circuits.any fun c => r.relays.contains (c.head, c.circuit) && !decide (c.fault = .none)

/-- A head the zone names, or the head of a channel of the zone, is configured and not ONLINE (R88). -/
def State.headAway (s : State) (z : Nat) (r : Zone) : Bool :=
  let heads := r.readers ++ r.sounders ++ r.relays.map Prod.fst ++ (s.zoneChannels z).map (·.head)
  heads.any fun a => (s.head a).configured && !decide ((s.head a).link = .online)

/-- The zone condition of a record (R88); NORMAL for an entry not in use. -/
def State.zoneCondition (s : State) (z : Nat) (r : Zone) : ZoneCondition :=
  let hs := (s.zoneChannels z).filter s.healthy
  if !r.inUse then .normal
  else if s.evac.overlay = .evacuate then .evacuate
  else if s.evac.overlay = .drill then .drill
  else if r.trip = .tripped then .trip
  else if (hs.any fun c => decide (2 ≤ c.level)) || decide (1 ≤ r.airvel.atL3) then .alarm
  else if (hs.any fun c => decide (c.level = 1)) || r.mobile then .warn
  else if s.headAway z r || ((s.zoneChannels z).any fun c => decide (c.state = .fault)) || r.relayFault then .fault
  else .normal

/-! ### Hand-offs of a trip to the People Unit (R82, R111) -/

/-- Applies an operation for each roster entry PRESENT in a zone, in ascending index. DESIGN CHOICE, log entry 64. -/
def State.forPresent (s : State) (z : Nat) (f : Nat → State → State) : State :=
  forEach ((s.people.roster.filter fun p => decide (p.2.state = .present) && decide (p.2.zone = some z)).map Prod.fst) f s

/-- The People Unit is told of a trip: a WITHDRAW condition for every miner PRESENT in the zone. -/
def State.peopleTrip (s : State) (z : Nat) (c : TripCause) : State :=
  let s1 : State := { s with people.tripped := storeAt s.people.tripped z c }
  let (target, next) := s.escapeBytes (some z)
  s1.forPresent z fun i s => s.assertCond (.miner i) .withdraw c.ctorIdx target next

/-- The People Unit is told of a change of trip cause: the code is replaced and the zone bytes stay (R81). -/
def State.peopleCause (s : State) (z : Nat) (c : TripCause) : State :=
  let s1 : State := { s with people.tripped := storeAt s.people.tripped z c }
  s1.forPresent z fun i s =>
    match s.condition? (.miner i) .withdraw with
    | some d => s.assertCond (.miner i) .withdraw c.ctorIdx d.target d.next
    | none => s

/-- The People Unit is told that a trip has cleared. -/
def State.peopleClear (s : State) (z : Nat) : State :=
  ({ s with people.tripped := dropAt s.people.tripped z } : State).forPresent z fun i s => s.endCond (.miner i) .withdraw

/-! ### The evaluation (R77) -/

/-- A zone's trip latch is written in the retained block (R82). -/
def State.setLatch (s : State) (z : Nat) (on : Bool) : State :=
  { s with
    supply.retained.latches :=
      if on then insertNat s.supply.retained.latches z else removeNat s.supply.retained.latches z }

/-- The fields of a zone record whose change sets the last change time and raises ZONE_GAS (R71, R77); the latch stands in
the retained block. -/
def Zone.changeFields (r : Zone) : Zone :=
  { Zone.blank with
    covered := r.covered, trip := r.trip, cause := r.cause, closed := r.closed, relayFault := r.relayFault,
    evacGas := r.evacGas, passable := r.passable, blocked := r.blocked, mobile := r.mobile, condition := r.condition }

/-- What an evaluation is made for: the record it starts from, whether CLEAR TRIP clears the trip, and whether the blind
grace timer has expired. -/
structure ZoneEvent where
  start : Zone
  clear : Bool
  expired : Bool
  deriving DecidableEq, Repr

/-- Tests in flight that hold a channel of the zone, each with the kinds it holds there (R93). The tests: bump tests, then
calibrations, then self checks, each in ascending index. DESIGN CHOICE, log entry 53. The kinds of a self check: in the order CH4,
CO, O2, AIRVEL. DESIGN CHOICE, log entry 75. -/
def State.testsIn (s : State) (z : Nat) : List (TestRef × List ChannelKind) :=
  let one (mk : Nat → TestRef) (i : Nat) : Option (TestRef × List ChannelKind) :=
    match s.channel? i with
    | some c => if c.zone = some z then some (mk i, [c.kind]) else none
    | none => none
  let head (a : Nat) : Option (TestRef × List ChannelKind) :=
    let kinds := ((s.zoneChannels z).filter fun c => decide (c.head = a) && decide (c.state = .selfcheck)).map (·.kind)
    match [ChannelKind.ch4, .co, .o2, .airvel].filter kinds.contains with
    | [] => none
    | ks => some (.check a, ks)
  (keysOf s.tests.bumps).filterMap (one .bump) ++ (keysOf s.tests.cals).filterMap (one .cal)
    ++ (keysOf s.tests.checks).filterMap head

/-- The Test Unit takes the report of an evaluation and notes the tests that end for cover (R93). Of several kinds that one
evaluation finds short in one self check, the first of CH4, CO, O2, AIRVEL is noted, and byte 59 of the result shows it. DESIGN
CHOICE, log entry 75. -/
def State.reportToTests (s : State) (z : Nat) (closedBefore : Bool) : State :=
  if closedBefore then
    let r := s.zoneRec z
    let due := (s.testsIn z).filterMap fun (t, ks) =>
      (ks.find? fun k => r.shortOf k (r.agg k).healthy).map fun k => (t, z, k)
    { s with work.aborts := s.work.aborts ++ due }
  else s

/-- The outcome of the stages of one evaluation: the record before, the record after, the latch before and after, and what
stage 2 did. -/
structure ZoneOutcome where
  old : Zone
  new : Zone
  oldLatch : Bool
  newLatch : Bool
  stage : TripStage
  deriving DecidableEq, Repr

/-- Stage 1 (R75, R78): aggregates and cover. -/
def State.stageCover (s : State) (z : Nat) (r : Zone) : Zone :=
  let r0 := s.withAggregates z r
  { r0 with covered := r0.isCovered }

/-- What stage 2 begins with: the trip as the record holds it, or cleared by CLEAR TRIP (R85). -/
def Zone.stageBegin (r : Zone) (clear : Bool) : TripStage :=
  { trip := if clear then .normal else r.trip, cause := if clear then none else r.cause, graceEnd := none,
    graceStart := false, tripped := false }

/-- The latch after stage 2: set by a new trip, cleared by CLEAR TRIP (R82, R85). -/
def State.stageLatch (s : State) (z : Nat) (clear : Bool) (before after : TripStage) : Bool :=
  if after.tripped && !decide (before.trip = .tripped) then true else s.latched z && !clear

/-- The record with trip state, cause and, by stage 3, its relay command (R83). -/
def State.stageRelay (s : State) (z : Nat) (r : Zone) (t : TripStage) (latch : Bool) : Zone :=
  let r1 := { r with trip := t.trip, cause := t.cause }
  { r1 with closed := (s.setLatch z latch).relayClosed z r1 }

/-- Stage 4 (R86): evac-gas and passable. -/
def Zone.stageAir (r : Zone) : Zone :=
  { r with evacGas := r.hasEvacGas, passable := r.inUse && !r.blocked && !r.hasEvacGas }

/-- Stage 5 (R84, R87, R88): the mobile warning, the relay fault and the condition. -/
def State.stageCondition (s : State) (z : Nat) (r : Zone) : Zone :=
  let r1 := { r with mobile := r.inUse && s.mobileWarning z, relayFault := r.inUse && s.relayFaulty r }
  { r1 with condition := s.zoneCondition z r1 }

/-- The record with its last change time, where a field of the change list or the latch changed (R71). -/
def Zone.stamped (old new : Zone) (latchMoved : Bool) (stamp : Nat) : Zone :=
  { new with changed := if !decide (old.changeFields = new.changeFields) || latchMoved then stamp else new.changed }

/-- The stages of an evaluation (R77), from the record the event starts from. -/
def State.zoneStages (s : State) (z : Nat) (e : ZoneEvent) : ZoneOutcome :=
  let old := s.zoneRec z
  let r := s.stageCover z e.start
  let t0 := r.stageBegin e.clear
  let t := s.tripStage z r e.start.closed e.expired t0
  let latch := s.stageLatch z e.clear t0 t
  let new := s.stageCondition z (s.stageRelay z r t latch).stageAir
  { old := old
    new := Zone.stamped old new (!decide (latch = s.latched z)) s.stamp
    oldLatch := s.latched z
    newLatch := latch
    stage := t }

/-- The evaluation changed a field of the last change list (R71). -/
def ZoneOutcome.changed (o : ZoneOutcome) : Bool :=
  !decide (o.old.changeFields = o.new.changeFields) || !decide (o.oldLatch = o.newLatch)

/-- A trip that the zone was not in before stage 2. -/
def ZoneOutcome.newTrip (o : ZoneOutcome) (clear : Bool) : Bool :=
  o.stage.tripped && (clear || !decide (o.old.trip = .tripped))

/-- The record update, the latch and the grace timer of an evaluation. -/
def State.writeZone (s : State) (z : Nat) (o : ZoneOutcome) : State :=
  let s1 := (s.setLatch z o.newLatch).putZone z o.new
  let s2 : State := if o.stage.graceEnd.isSome then { s1 with zone.grace := dropAt s1.zone.grace z } else s1
  if o.stage.graceStart then
    { s2 with zone.grace := storeAt s2.zone.grace z ⟨s2.now, s2.supply.policy.blindGrace * 1000⟩ }
  else s2

/-- The hand-offs of an evaluation, in the order of R77. -/
def State.zoneHandOffs (s : State) (z : Nat) (o : ZoneOutcome) (clear : Bool) : State :=
  let cause := o.new.cause.getD .gas
  let people (s : State) : State :=
    let s := if clear then s.peopleClear z else s
    if o.stage.tripped then (if o.newTrip clear then s.peopleTrip z cause else s.peopleCause z cause) else s
  let vehicle (s : State) : State :=
    let s := if clear && !o.stage.tripped then s.vehicleClear z else s
    if o.newTrip clear then s.vehicleTrip z else s
  let s1 := (vehicle (people s)).alarmZone z (!decide (o.old.condition = o.new.condition))
    (!decide (o.old.trip = o.new.trip) || !decide (o.oldLatch = o.newLatch))
  let s2 := if o.old.passable = o.new.passable then s1 else s1.askRecompute
  if o.old.evacGas = o.new.evacGas then s2
  else s2.handEvac (if o.new.evacGas then .gasRise z else .gasFall z)

/-- The events of an evaluation, in the order of Table 4-1. The aggregates of an entry that has left use are kept inside (R74),
so VENTILATION_RESTORED is judged for an entry in use. VENTILATION_LOSS and VENTILATION_RESTORED are logged at each rise and fall
of R87, also where no field of the last change list has changed and ZONE_GAS is not raised. DESIGN CHOICE, log entry 74. -/
def State.zoneEvents (s : State) (z : Nat) (o : ZoneOutcome) (clear : Bool) : State :=
  let h := (s.aggregate z .ch4).healthy
  let l3 := (s.aggregate z .ch4).atL3
  let oldCause := (o.old.cause.map (·.ctorIdx)).getD absent8
  let av := o.new.airvel
  let s1 := s.appendIf clear 0x30 clsZone z oldCause 0
  let s2 := match o.stage.graceEnd with
    | some k => s1.append 0x31 clsZone z k h
    | none => s1
  let s3 := s2.appendIf o.stage.graceStart 0x32 clsZone z s.supply.policy.blindGrace 0
  let s4 := s3.appendIf o.stage.tripped 0x33 clsZone z ((o.new.cause.map (·.ctorIdx)).getD absent8) (l3 * 256 + h)
  let s5 := s4.appendIf (!decide (o.old.covered = o.new.covered)) 0x34 clsZone z o.new.covered.toNat h
  let s6 := s5.appendIf (!decide (o.old.closed = o.new.closed)) 0x35 clsZone z o.new.closed.toNat o.new.trip.ctorIdx
  let s7 := s6.appendIf (decide (o.old.airvel.atL3 = 0) && decide (1 ≤ av.atL3)) 0x36 clsZone z av.atL3 av.healthy
  s7.appendIf (o.new.inUse && decide (1 ≤ o.old.airvel.atL3) && decide (av.atL3 = 0)) 0x37 clsZone z 0 av.healthy

/-- One evaluation of one zone, whole (R77): stages, one record update, hand-offs, ZONE_GAS where a field of the last change list
has changed, events, and the report to the Test Unit (R93). -/
def State.evaluate (s : State) (z : Nat) (e : ZoneEvent) : State :=
  let o := s.zoneStages z e
  let s1 := (s.writeZone z o).zoneHandOffs z o e.clear
  let s2 := (s1.raiseIf o.changed .zoneGas).zoneEvents z o e.clear
  s2.reportToTests z e.start.closed

/-- The evaluation of a zone in use, as its record stands; an entry not in use keeps its aggregates inside the part. -/
def State.evalZone (s : State) (z : Nat) : State :=
  let r := s.zoneRec z
  if r.inUse then s.evaluate z { start := r, clear := false, expired := false } else s

/-- The evaluation of the zone a channel or vehicle names, if any. -/
def State.evalZone? (s : State) : Option Nat → State
  | some z => s.evalZone z
  | none => s

/-- The evaluations of several zones, in ascending number (R76 gives no order). DESIGN CHOICE, log entry 64. -/
def State.evalZones (s : State) (zs : List Nat) : State := forEach (zs.foldl insertNat []) (fun z s => s.evalZone z) s

/-- The evaluation of every zone in use, in ascending number (R76). -/
def State.evalAllZones (s : State) : State := forEach s.zonesInUse (fun z s => s.evalZone z) s

/-- The Evacuation Unit gives the overlay; a change evaluates every zone in use (R76, R88), in ascending number. DESIGN CHOICE, log
entry 64. -/
def State.giveOverlay (s : State) (o : Overlay) : State :=
  if s.evac.overlay = o then s else ({ s with evac.overlay := o } : State).evalAllZones

/-- A zone whose latch is set becomes TRIPPED with cause RETAINED at the entry to RUNNING, with the effects of R82 (R89). -/
def State.tripRetained (s : State) (z : Nat) : State :=
  let r := s.zoneRec z
  let r1 := { r with trip := .tripped, cause := some .retained, changed := s.stamp }
  let r2 := if r.inUse then { r1 with condition := r1.condition.max .trip } else r1
  let s1 := (((s.putZone z r2).peopleTrip z .retained).vehicleTrip z).alarmZone z
    (!decide (r.condition = r2.condition)) true
  let a := s.aggregate z .ch4
  (s1.raise .zoneGas).append 0x33 clsZone z TripCause.retained.ctorIdx (a.atL3 * 256 + a.healthy)

end Sys2Proof.Machine
end

