-- ==== Sys2Proof/Machine/RouteCore.lean ====
section
/-! DEFINITION. The Route Unit's judgements of refuges (R144 to R146) and the recompute of the escape table (R148 to R151). -/

namespace Sys2Proof.Machine

open Sys2Proof.Config

/-! ### Refuges -/

/-- The panel of a refuge is reached (R143). -/
def State.panelReached (s : State) (r : Refuge) : Bool :=
  s.headOnline r.panel && decide ((s.head r.panel).kind = .refuge)

/-- The O2 channel fails the refuge (R145, reason 2). -/
def State.o2Fails (s : State) (r : Refuge) : Bool :=
  match s.channel? r.o2 with
  | some c => !decide (c.kind = .o2) || !s.healthy c || !decide (c.level = 0)
  | none => true

/-- The CO channel fails the refuge (R145, reason 3). -/
def State.coFails (s : State) (r : Refuge) : Bool :=
  match s.channel? r.co with
  | some c => !decide (c.kind = .co) || !s.healthy c || decide (2 ≤ c.level)
  | none => true

/-- The reasons that hold, bit n for reason n (R145). -/
def State.refugeReasons (s : State) (r : Refuge) : Nat :=
  (!s.panelReached r).toNat + 2 * (decide (r.door = .fault)).toNat + 4 * (s.o2Fails r).toNat + 8 * (s.coFails r).toNat
    + 16 * (decide (r.battery = .fault)).toNat + 32 * (decide (r.capacity ≤ r.tagOcc)).toNat

/-- Door and tag occupancy differ by more than 2 (R146). -/
def Refuge.mismatched (r : Refuge) : Bool :=
  decide (r.tagOcc + occupancyTolerance < r.doorOcc) || decide (r.doorOcc + occupancyTolerance < r.tagOcc)

/-- The record with its judgements of R145 and R146. -/
def State.judged (s : State) (r : Refuge) : Refuge :=
  let reasons := s.refugeReasons r
  { r with reasons := reasons, usable := decide (reasons = 0), mismatch := r.mismatched }

/-- The tag occupancy of a zone: entries AT_REFUGE there (R144). -/
def State.atRefuge (s : State) (z : Nat) : Nat :=
  (s.people.roster.filter fun p => decide (p.2.state = .atRefuge) && decide (p.2.zone = some z)).length

/-- A refuge is to be judged at the end of the event's own work; its record before the event is kept for the news of the event's
one update (R141, R152). -/
def State.noteRefuge (s : State) (i : Nat) : State :=
  if (lookupAt s.work.refuges i).isSome then s
  else { s with work.refuges := storeAt s.work.refuges i (s.refuge? i) }

/-- A refuge takes the fields that an order or a panel reply gives it, with the flags as they stood, and is to be judged; a rise
of its pull input is a trigger and logs REFUGE_PULL (R142, R143). -/
def State.changeRefuge (s : State) (i : Nat) (r : Refuge) (pullRise : Bool) : State :=
  let s1 := (s.noteRefuge i).putRefuge i r
  if pullRise then (s1.handEvac (.pull clsRefuge i)).append 0x70 clsRefuge i 1 r.tagOcc else s1

/-- A refuge record without the door counts, whose change alone raises nothing (R152). -/
def Refuge.newsworthy (r : Refuge) : Refuge := { r with inCount := 0, outCount := 0 }

/-- The judgements of a noted refuge at the end of the event's own work (R144 to R146, R152): tag occupancy, reasons, usable and
mismatch flags, the cause, the recompute asked for and the events. `old` is the record before the event. -/
def State.judgeRefuge (s : State) (i : Nat) (old : Option Refuge) : State :=
  match s.refuge? i with
  | none => s
  | some base =>
    let r := s.judged { base with tagOcc := s.atRefuge base.zone }
    let s1 := (s.putRefuge i r).raiseOnceIf (!decide (old.map Refuge.newsworthy = some r.newsworthy)) .refugeState i
    let s2 := if base.usable = r.usable then s1 else s1.askRecompute
    let s3 := s2.appendIf (!decide (base.usable = r.usable)) 0x71 clsRefuge i r.usable.toNat r.reasons
    let s4 := s3.appendIf (r.mismatch && !base.mismatch) 0x72 clsRefuge i r.doorOcc r.tagOcc
    s4.appendIf (base.mismatch && !r.mismatch) 0x73 clsRefuge i r.doorOcc r.tagOcc

/-- The refuges in use that a report concerns are to be judged (R145), in ascending index. DESIGN CHOICE, log entry 64. -/
def State.judgeRefuges (s : State) (p : Refuge → Bool) : State :=
  forEach (keysOf s.route.refuges)
    (fun i s => match s.refuge? i with
      | some r => if p r then s.noteRefuge i else s
      | none => s) s

/-- Entries entered or left AT_REFUGE: each refuge whose tag occupancy changes is to be judged (R144). -/
def State.recountRefuges (s : State) : State :=
  s.judgeRefuges fun r => !decide (r.tagOcc = s.atRefuge r.zone)

/-! ### The escape table (R148 to R151) -/

/-- A way out of a zone: distance, next zone, target zone. -/
abbrev Way := Nat × Nat × Nat

/-- A zone in use and passable. -/
def State.open? (s : State) (z : Nat) : Bool := (s.zoneRec z).inUse && (s.zoneRec z).passable

/-- The targets, in ascending zone number (R149, step 1). -/
def State.targets (s : State) : List Nat :=
  s.zonesInUse.filter fun z =>
    s.open? z && (decide ((s.zoneRec z).kind = .exit)
      || s.route.refuges.any fun p => p.2.usable && decide (p.2.zone = z))

/-- The visit of a zone taken out of the queue: its neighbours in order (R149, step 2). -/
def State.visit (s : State) (z : Nat) (w : Way) : List Nat → List Nat → Tbl Way → List Nat × Tbl Way
  | [], q, t => (q, t)
  | b :: bs, q, t =>
    if s.open? b && (lookupAt t b).isNone then s.visit z w bs (q ++ [b]) (storeAt t b (w.1 + 1, z, w.2.2))
    else s.visit z w bs q t

/-- The search outward from the queue (R149, step 2); each zone is taken out once, so 32 turns are enough. -/
def State.search (s : State) : Nat → List Nat → Tbl Way → Tbl Way
  | 0, _, t => t
  | _ + 1, [], t => t
  | n + 1, z :: q, t =>
    match lookupAt t z with
    | some w =>
      let (q', t') := s.visit z w (s.zoneRec z).neighbours q t
      s.search n q' t'
    | none => s.search n q t

/-- Every zone's way found by the search. -/
def State.ways (s : State) : Tbl Way :=
  s.search zoneCount s.targets (s.targets.map fun z => (z, (0, z, z)))

/-- The neighbour an impassable zone takes: the smallest distance, ties to the earlier in its list (R150, step 3). -/
def nearest (t : Tbl Way) : List Nat → Option (Nat × Way)
  | [] => none
  | b :: bs =>
    match lookupAt t b, nearest t bs with
    | some w, some (c, x) => if x.1 < w.1 then some (c, x) else some (b, w)
    | some w, none => some (b, w)
    | none, r => r

/-- A zone's entry in the completed table (R150). -/
def State.escapeEntry (s : State) (t : Tbl Way) (z : Nat) : Escape :=
  let r := s.zoneRec z
  if !r.inUse then Escape.blank
  else if r.passable then { way := lookupAt t z, badAir := false }
  else { way := (nearest t r.neighbours).map fun p => (min 31 (p.2.1 + 1), p.1, p.2.2.2), badAir := true }

/-- Asserts or replaces a roster entry's EVACUATE condition with the content of its zone's escape entry (R160). -/
def State.assertEvacuate (s : State) (i : Nat) (m : Miner) : State :=
  let (target, next) := s.escapeBytes m.zone
  s.assertCond (.miner i) .evacuate s.evac.drill.toNat target next

/-- The Evacuation Unit takes the set of changed zones: EVACUATE conditions of REQUIRED entries there are replaced, in
ascending roster index (R151, R160). -/
def State.replaceEvacuate (s : State) (zones : List Nat) : State :=
  let concerned := s.people.roster.filter fun p =>
    decide (p.2.muster = .required) && match p.2.zone with
      | some z => zones.contains z
      | none => false
  concerned.foldl (fun s p => s.assertEvacuate p.1 p.2) s

/-- The entries that the completed table changes (R151). -/
def State.escapeChanges (s : State) : List (Nat × Escape) :=
  let t := s.ways
  ((List.range zoneCount).map fun z => (z, s.escapeEntry t z)).filter fun p => !decide (s.escape p.1 = p.2)

/-- The generation rises by one, wrapping (R151). -/
def State.nextGeneration (s : State) : State := { s with route.generation := s.route.generation + 1 }

/-- No recompute is asked for any more. -/
def State.answerRecompute (s : State) : State := { s with work.recompute := false }

/-- A recompute, whole (R149 to R151). -/
def State.recompute (s : State) : State :=
  let changes := s.escapeChanges
  let s1 := changes.foldl (fun s p => s.putEscape p.1 p.2) s.answerRecompute
  let s2 := s1.nextGeneration.bumpSummary
  let s3 := s2.replaceEvacuate (changes.map Prod.fst)
  (s3.raise .escapeTable).append 0x76 clsDistrict 0 s3.route.generation.toNat changes.length

/-- The one recompute that the requests of an event give (R148). DESIGN CHOICE, log entry 11. -/
def State.recomputeNow (s : State) : State := if s.work.recompute then s.recompute else s

end Sys2Proof.Machine
end

