-- ==== Sys2Proof/Machine/Air.lean ====
section
/-! DEFINITION. The Air Evaluator: raw check, conversion, smoothing window, levels, channel record updates and moves (R54 to
R68). -/

namespace Sys2Proof.Machine

open Sys2Proof.Config

/-! ### The arithmetic of a reading -/

/-- The raw check: the cause of a reading that is not clean, none for a clean one (R57). DEDUCED, log entry 18. -/
def rawCheck (r : RawReading) : Option FaultCause :=
  if r.sensor then some .sensor
  else if r.warmup then some .warmup
  else if r.raw = 0 ∨ 4095 ≤ r.raw then some .signal
  else none

/-- The unbounded value of a raw count (R59). -/
def Channel.unbounded (c : Channel) (r : Nat) : Nat :=
  if c.zero ≤ r then ((r - c.zero) * c.gas + (c.span - c.zero) / 2) / (c.span - c.zero) else 0

/-- The instant value of a raw count: limited to full scale (R59). -/
def Channel.convert (c : Channel) (r : Nat) : Nat := min (c.unbounded r) c.kind.fullScale

/-- OVER_RANGE of a conversion (R61). -/
def Channel.overScale (c : Channel) (r : Nat) : Bool := decide (c.kind.fullScale < c.unbounded r)

/-- The drift-low test (R60). -/
def Channel.drifted (c : Channel) (r : Nat) : Bool := decide (r < c.zero) && decide (c.span - c.zero < (c.zero - r) * 20)

/-- The smoothing window after a value is appended (R62). -/
def appendWindow (w : Nat) (l : List Nat) (v : Nat) : List Nat := (if w ≤ l.length then l.drop 1 else l) ++ [v]

/-- The rounded mean of a window, absent while it is empty (R62). -/
def meanOf (l : List Nat) : Option Nat :=
  if l.isEmpty then none else some ((l.foldl (· + ·) 0 + l.length / 2) / l.length)

/-- The threshold of a level. -/
def Channel.threshold (c : Channel) : Nat → Nat
  | 1 => c.l1
  | 2 => c.l2
  | _ => c.l3

/-- The value compared with a threshold: the mean for levels 1 and 2, and for level 3 the worse of mean and instant value
(R63, R64). -/
def Channel.compared (c : Channel) (m v : Nat) (level : Nat) : Nat :=
  if level = 3 then (if c.kind.rising then max m v else min m v) else m

/-- A compared value reaches a level's threshold. -/
def Channel.reaches (c : Channel) (m v level : Nat) : Bool :=
  if c.kind.rising then decide (c.threshold level ≤ c.compared m v level)
  else decide (c.compared m v level ≤ c.threshold level)

/-- A compared value has fallen back by more than the hysteresis (signed comparison, R63, R64). -/
def Channel.leaves (c : Channel) (m v level : Nat) : Bool :=
  if c.kind.rising then decide (c.compared m v level + c.hyst < c.threshold level)
  else decide (c.threshold level + c.hyst < c.compared m v level)

/-- The highest level whose threshold is reached. -/
def Channel.upTo (c : Channel) (m v : Nat) : Nat :=
  if c.reaches m v 3 then 3 else if c.reaches m v 2 then 2 else if c.reaches m v 1 then 1 else 0

/-- Falls one level at a time while the level is left. -/
def fallFrom (leaves : Nat → Bool) : Nat → Nat
  | 0 => 0
  | n + 1 => if leaves (n + 1) then fallFrom leaves n else n + 1

/-- The level evaluated from the current one (R63, R64). -/
def Channel.evaluate (c : Channel) (cur m v : Nat) : Nat :=
  let up := c.upTo m v
  if cur < up then up else fallFrom (c.leaves m v) cur

/-- An instant value has cleared L1 (R58, R97). -/
def Channel.cleared (c : Channel) (v : Nat) : Bool := if c.kind.rising then decide (v < c.l1) else decide (c.l1 < v)

/-! ### Changes of state -/

/-- A channel record with its window. -/
structure Cell where
  chan : Channel
  win : List Nat
  deriving DecidableEq, Repr

/-- The window emptied, the mean absent and the level 0. -/
def Cell.emptied (x : Cell) : Cell := { chan := { x.chan with mean := none, n := 0, level := 0 }, win := [] }

/-- Entering FAULT (R57). -/
def Cell.faulted (x : Cell) (cause : FaultCause) : Cell :=
  let e := x.emptied
  { e with chan := { e.chan with state := .fault, cause := some cause, overRange := false } }

/-- Entering a test state, RECOVERY, or SETTLING with an empty window (R62, R65, R67). -/
def Cell.entering (x : Cell) (st : ChannelState) : Cell :=
  let e := x.emptied
  { e with chan := { e.chan with state := st, cause := none } }

/-- Mean, count, state and level from the window held (R52, R62, R65). -/
def Cell.evaluated (x : Cell) : Cell :=
  let n := x.win.length
  let c := { x.chan with
    mean := meanOf x.win
    n := n
    state := if n = x.chan.window then ChannelState.normal else .settling }
  { x with
    chan := { c with level := match c.mean with
      | some m => c.evaluate c.level m c.v
      | none => c.level } }

/-- A clean reading through the stages of a channel in service (R56): conversion with the drift-low test, window and mean,
level. -/
def Cell.served (x : Cell) (r : Nat) : Cell :=
  if x.chan.drifted r then
    let f := x.faulted .driftLow
    { f with chan := { f.chan with v := 0 } }
  else
    let v := x.chan.convert r
    ({ chan := { x.chan with v := v, overRange := x.chan.overScale r }, win := appendWindow x.chan.window x.win v } : Cell).evaluated

/-- What a reading passes to the Test Unit (R56). -/
inductive Passed where
  | nothing
  | bumpValue (v level : Nat)
  | bumpBad (cause : FaultCause)
  | recoveryValue (v : Nat)
  | recoveryBad
  | calRaw (raw : Nat) (cause : Option FaultCause)
  deriving DecidableEq, Repr

/-- A converted value shown without going into the window. -/
def Cell.shown (x : Cell) (r : Nat) : Cell :=
  { x with chan := { x.chan with v := x.chan.convert r, overRange := x.chan.overScale r } }

/-- One reading of a channel in FAULT (R56, R58). -/
def Cell.readFault (x : Cell) (r : RawReading) (cause : FaultCause) : Cell :=
  match cause with
  | .link | .warmup | .signal | .sensor =>
    match rawCheck r with
    | none => (x.entering .settling).served r.raw
    | some k => { x with chan := { x.chan with cause := some k } }
  | .driftLow => x
  | .slowRecovery =>
    match rawCheck r with
    | none =>
      if x.chan.drifted r.raw || x.chan.cleared (x.chan.convert r.raw) then (x.entering .settling).served r.raw
      else x.shown r.raw
    | some _ => x

/-- One reading processed by the state of its channel (Table 3-3): the record and window it leaves, and what it passes to the
Test Unit. -/
def Cell.read (x0 : Cell) (r : RawReading) : Cell × Passed :=
  let x : Cell := { x0 with chan := { x0.chan with lastRaw := some r.raw } }
  match x.chan.state with
  | .normal | .settling =>
    match rawCheck r with
    | none => (x.served r.raw, .nothing)
    | some k => (x.faulted k, .nothing)
  | .fault => (x.readFault r (x.chan.cause.getD .link), .nothing)
  | .bump =>
    match rawCheck r with
    | none =>
      let y := x.shown r.raw
      let level := y.chan.evaluate y.chan.level y.chan.v y.chan.v
      ({ y with chan := { y.chan with level := level } }, .bumpValue y.chan.v level)
    | some k => (x, .bumpBad k)
  | .recovery =>
    match rawCheck r with
    | none => (x.shown r.raw, .recoveryValue (x.shown r.raw).chan.v)
    | some k => (x.faulted k, .recoveryBad)
  | .cal => (x, .calRaw r.raw (rawCheck r))
  | .selfcheck => (x, .nothing)

/-! ### Record updates, news and reports -/

/-- The state and cause of a channel as an event value; 0xFFFF for an entry not in use (Table 3-4). -/
def Channel.side (o : Option Channel) : Nat :=
  match o with
  | some c => c.state.ctorIdx * 256 + orFF (c.cause.map (·.ctorIdx))
  | none => 0xFFFF

/-- The report of R55 for a channel: the zones named are evaluated, then the refuges that name the channel are judged. -/
def State.reportChannel (s : State) (i : Nat) (zones : List Nat) : State :=
  (s.evalZones zones).judgeRefuges fun r => decide (r.o2 = i) || decide (r.co = i)

/-- A channel's update calls for a report: its health changed, or its level while healthy (R55). -/
def reportable (old new : Channel) : Bool :=
  !decide (old.state.healthy = new.state.healthy) || (new.state.healthy && !decide (old.level = new.level))

/-- The record update of a channel in use, with the last change time, CHANNEL_LEVEL, the events in the order of R68, and the
report of R55. -/
def State.commitChannel (s : State) (i : Nat) (old : Channel) (x : Cell) : State :=
  let c := x.chan
  let moved := !decide (old.state = c.state) || !decide (old.cause = c.cause)
  let levelled := !decide (old.level = c.level)
  let ranged := !decide (old.overRange = c.overRange)
  let c' := if moved || levelled || ranged then { c with changed := s.stamp } else c
  let s1 := (s.putWindow i x.win).putChannel i c'
  let s2 := s1.raiseOnceIf (moved || levelled) .channelLevel i
  let s3 := s2.appendIf moved 0x20 clsChannel i (Channel.side (some old)) (Channel.side (some c))
  let s4 := s3.appendIf ranged 0x21 clsChannel i c.overRange.toNat (c.lastRaw.getD 0)
  let s5 := s4.appendIf levelled 0x22 clsChannel i old.level c.level
  if reportable old c then s5.reportChannel i c.zone.toList else s5

/-- A channel's record with its window. -/
def State.cell? (s : State) (i : Nat) : Option Cell := (s.channel? i).map fun c => ⟨c, s.channelWindow i⟩

/-- Changes a channel in use, in one record update. -/
def State.changeChannel (s : State) (i : Nat) (f : Cell → Cell) : State :=
  match s.cell? i with
  | some x => s.commitChannel i x.chan (f x)
  | none => s

/-- The Test Unit moves a channel: one record update, followed by the report of R55 whether or not the health changes (R67). -/
def State.moveChannel (s : State) (i : Nat) (f : Cell → Cell) : State :=
  match s.cell? i with
  | some x =>
    let s1 := s.commitChannel i x.chan (f x)
    if reportable x.chan (f x).chan then s1 else s1.reportChannel i (f x).chan.zone.toList
  | none => s

/-- The Test Unit returns a channel to service: SETTLING with an empty window, or FAULT with cause LINK where the head is not
ONLINE or the channel is not attached (R66, R67). -/
def State.returned (s : State) (x : Cell) : Cell :=
  if s.headOnline x.chan.head && s.attached x.chan then x.entering .settling else x.faulted .link

/-- One channel of a head that leaves ONLINE (R66). -/
def Cell.linkLost (x : Cell) : Cell :=
  match x.chan.state with
  | .normal | .settling => x.faulted .link
  | .fault =>
    match x.chan.cause with
    | some .warmup | some .signal | some .sensor => { x with chan := { x.chan with cause := some .link } }
    | _ => x
  | .bump | .recovery | .cal | .selfcheck => x

/-- The channels in use that name a head, in index order. -/
def State.headChannels (s : State) (a : Nat) : List Nat :=
  (s.air.channels.filter fun p => decide (p.2.head = a)).map Prod.fst

/-- A leaving of ONLINE for the channels given, in index order (R66). -/
def State.airLeaves (s : State) (is : List Nat) : State := forEach is (fun i s => s.changeChannel i Cell.linkLost) s

end Sys2Proof.Machine
end

