-- ==== Sys2Proof/Machine/Tests.lean ====
section
/-! DEFINITION. The Test Unit: admission, bump tests, recoveries, calibrations, self checks and their ends (Chapter 5), and
the handling of a reading by the Air Evaluator and the Test Unit together. -/

namespace Sys2Proof.Machine

open Sys2Proof.Config

/-! Order codes of the Test Unit (Table 1-6). -/
def codeBump : Nat := 0x21
def codeSelfCheck : Nat := 0x22
def codeCalibrate : Nat := 0x23

/-- Tenths of a second from one run time to another, truncated and saturating (R96). -/
def tenths (later earlier : Clock) : Nat := min 65535 (elapsed later earlier / 100)

/-- An absent time in a result. -/
def absent16 : Nat := 0xFFFF

/-! ### Admission (R92) -/

/-- The kinds in the order in which admission examines them (R92). -/
def kindOrder : List ChannelKind := [.ch4, .co, .o2, .airvel]

/-- The admission check for the channels taken: the first zone and kind that cannot spare them, with the healthy count left. -/
def State.admission (s : State) (taken : List Nat) : Option (Nat × ChannelKind × Nat) :=
  let cs := taken.filterMap s.channel?
  let zones := (cs.filterMap (·.zone)).foldl insertNat []
  zones.findSome? fun z =>
    let r := s.zoneRec z
    kindOrder.findSome? fun k =>
      let mine := cs.filter fun c => decide (c.zone = some z) && decide (c.kind = k)
      let h := (r.agg k).healthy - (mine.filter s.healthy).length
      if !mine.isEmpty && r.closed && r.shortOf k h then some (z, k, h) else none

/-! ### Ends of tests -/

/-- Logs TEST_END and reports the end to the Order Unit (R104). -/
def State.reportEnd (s : State) (cls : Nat) (t : TargetKind) (i code : Nat) (r : OrderResult) (q : Nat)
    (vals : List Byte) : State :=
  (s.append 0x40 cls i (code * 256 + r.ctorIdx) q).endOrder code t i r q vals

/-- Where a channel goes at the end of a test. -/
inductive After where
  | recovery | service
  deriving DecidableEq, Repr

/-- A bump test ends: the record is removed, the channel moves in one record update with what the reading that ends the test
makes of it, TEST_END is logged and the end reported (R4, R96). The level that the reading evaluates is not shown or logged
apart from the move's. DEDUCED, log entry 57. -/
def State.endBump (s : State) (i : Nat) (b : BumpRec) (r : OrderResult) (q : Nat) (rise : List Byte) (cause : Nat)
    (after : After) (seen : Cell → Cell) : State :=
  let toA := match b.timeAtA with
    | some t => tenths t b.start
    | none => absent16
  let vals := leBytes 2 toA ++ rise ++ leBytes 2 b.extreme ++ [BitVec.ofNat 8 b.highest, BitVec.ofNat 8 cause]
  let s1 : State := { s with tests.bumps := dropAt s.tests.bumps i }
  let s2 : State := match after with
    | .recovery =>
      ({ s1 with tests.recoveries := storeAt s1.tests.recoveries i s1.now } : State).moveChannel i fun x =>
        (seen x).entering .recovery
    | .service => s1.moveChannel i fun x => s1.returned (seen x)
  s2.reportEnd clsChannel .channel i codeBump r q vals

/-- A calibration ends: the record is removed, the channel returns with what it is given, TEST_END is logged and the end
reported (R99, R100). -/
def State.endCal (s : State) (i : Nat) (c : CalRec) (r : OrderResult) (q : Nat) (low high : List Byte) (cause : Nat)
    (give : Cell → Cell) : State :=
  let vals := low ++ high ++ [BitVec.ofNat 8 c.samples.length, 0#8, 0#8, BitVec.ofNat 8 cause]
  let s1 : State := { s with tests.cals := dropAt s.tests.cals i }
  (s1.moveChannel i fun x => s1.returned (give x)).reportEnd clsChannel .channel i codeCalibrate r q vals

/-- The values of a self check: two bytes a step, 0xFFFF for one skipped or not reported (R103). -/
def CheckRec.bytes (c : CheckRec) : List Byte :=
  [1, 2, 3, 4].flatMap fun k => leBytes 2 ((lookupAt c.values k).getD absent16)

/-- A self check ends: the record is removed, its channels return in ascending index, TEST_END is logged and the end reported (R103).
DESIGN CHOICE, log entry 54. -/
def State.endCheck (s : State) (a : Nat) (r : OrderResult) (q : Nat) (vals : List Byte) : State :=
  let s1 : State := { s with tests.checks := dropAt s.tests.checks a }
  let mine := s1.headChannels a
  (forEach mine (fun i s => match s.channel? i with
    | some c => if c.state = .selfcheck then s.moveChannel i s.returned else s
    | none => s) s1).reportEnd clsHead .head a codeSelfCheck r q vals

/-- A recovery ends: RECOVERY_END is logged after the channel's move, the record is removed (R97, R104). The duration in whole
seconds: DESIGN CHOICE, log entry 70. -/
def State.endRecovery (s : State) (i : Nat) (start : Clock) (outcome : Nat) (move : State → State) : State :=
  let s1 := move { s with tests.recoveries := dropAt s.tests.recoveries i }
  s1.append 0x41 clsChannel i outcome (min 65535 (elapsed s.now start / 1000))

/-- The two absent bytes of a bump test's rise time. -/
def noRise : List Byte := leBytes 2 absent16

/-- A recovery ends because SET CHANNEL removed or restarted the channel (R97, REMOVED). -/
def State.dropRecovery (s : State) (i : Nat) : State :=
  match lookupAt s.tests.recoveries i with
  | some start => s.endRecovery i start 3 id
  | none => s

/-- Cover is short: a test is aborted, its channels returning at once (R93). -/
def State.abortTest (s : State) (t : TestRef) (z : Nat) (k : ChannelKind) : State :=
  let zk := [BitVec.ofNat 8 z, BitVec.ofNat 8 k.ctorIdx]
  match t with
  | .bump i =>
    match lookupAt s.tests.bumps i with
    | some b => s.endBump i b .aborted 1 zk absent8 .service id
    | none => s
  | .cal i =>
    match lookupAt s.tests.cals i with
    | some c => s.endCal i c .aborted 1 (leBytes 2 0) zk 0 id
    | none => s
  | .check a =>
    match lookupAt s.tests.checks a with
    | some c => s.endCheck a .aborted 1 (c.bytes.take 2 ++ zk ++ c.bytes.drop 4)
    | none => s

/-- CANCEL ends a test (R16, Table 5-1, R100, R103). -/
def State.cancelTest (s : State) (t : TestRef) : State :=
  match t with
  | .bump i =>
    match lookupAt s.tests.bumps i with
    | some b => s.endBump i b .cancelled 0 noRise absent8 .recovery id
    | none => s
  | .cal i =>
    match lookupAt s.tests.cals i with
    | some c => s.endCal i c .cancelled 0 (leBytes 2 0) (leBytes 2 0) 0 id
    | none => s
  | .check a =>
    match lookupAt s.tests.checks a with
    | some c => s.endCheck a .cancelled 0 c.bytes
    | none => s

/-- The link ends of the tests on channels, in the order given (Table 5-1, R100), which is ascending. DESIGN CHOICE, log entry 64. -/
def State.testsLeaveChannels (s : State) (is : List Nat) : State :=
  forEach is (fun i s =>
    match lookupAt s.tests.bumps i with
    | some b => s.endBump i b .aborted 2 noRise absent8 .recovery id
    | none =>
      match lookupAt s.tests.cals i with
      | some c => s.endCal i c .linkLost 0 (leBytes 2 0) (leBytes 2 0) 0 id
      | none => s) s

/-- The link end of a self check (R103). -/
def State.testLeavesHead (s : State) (a : Nat) : State :=
  match lookupAt s.tests.checks a with
  | some c => s.endCheck a .linkLost 0 c.bytes
  | none => s

/-! ### Readings passed to the Test Unit -/

/-- A value reaches a threshold of a bump test (R95). -/
def ChannelKind.meets (k : ChannelKind) (v threshold : Nat) : Bool :=
  if k.rising then decide (threshold ≤ v) else decide (v ≤ threshold)

/-- A bump test's record after a passed reading (R95, steps 1 and 2). -/
def BumpRec.take (b : BumpRec) (k : ChannelKind) (now : Clock) (v level : Nat) : BumpRec :=
  { b with
    extreme := if k.rising then max b.extreme v else min b.extreme v
    highest := max b.highest level
    timeAtA := match b.timeAtA with
      | some t => some t
      | none => if k.meets v b.a then some now else none }

/-- Least and greatest sample. -/
def leastOf (l : List Nat) : Nat := match l with
  | [] => 0
  | x :: xs => xs.foldl min x
def greatestOf (l : List Nat) : Nat := l.foldl max 0

/-- Judges a calibration of 8 samples on the channel as the last reading leaves it (R99). -/
def State.judgeCal (s : State) (i : Nat) (y : Cell) (c : CalRec) : State :=
  let lo := leastOf c.samples
  let hi := greatestOf c.samples
  let new := (c.samples.foldl (· + ·) 0 + 4) / 8
  let old := if c.span then y.chan.span else y.chan.zero
  let newZero := if c.span then y.chan.zero else new
  let newSpan := if c.span then new else y.chan.span
  if calSpread < hi - lo then s.endCal i c .unstable 0 (leBytes 2 lo) (leBytes 2 hi) 0 fun _ => y
  else if newSpan < newZero + minSpan then s.endCal i c .badArgument 9 (leBytes 2 old) (leBytes 2 new) 0 fun _ => y
  else
    s.endCal i c .ok 0 (leBytes 2 old) (leBytes 2 new) 0 fun _ =>
      { y with chan := { y.chan with zero := newZero, span := newSpan, gas := if c.span then c.gas else y.chan.gas } }

/-- A channel takes what a reading made of it, in one record update. -/
def State.takeCell (s : State) (i : Nat) (y : Cell) : State := s.changeChannel i fun _ => y

/-- The record update of a reading that left the channel as `y`, and the Test Unit's part in what it passed on; where the reading
ends a test or a recovery, the channel's move is made in the same update (R4, R56, R95, R97, R99). DEDUCED, log entry 57. -/
def State.handlePassed (s : State) (i : Nat) (y : Cell) (p : Passed) : State :=
  match p with
  | .nothing => s.takeCell i y
  | .bumpValue v level =>
    match lookupAt s.tests.bumps i with
    | some b0 =>
      let b := b0.take y.chan.kind s.now v level
      let goesOn (s : State) : State := { s with tests.bumps := storeAt s.tests.bumps i b }
      match b.timeAtA with
      | some t =>
        if y.chan.kind.meets v b.b then
          s.endBump i b .ok 0 (leBytes 2 (tenths s.now t)) absent8 .recovery fun _ => y
        else goesOn (s.takeCell i y)
      | none => goesOn (s.takeCell i y)
    | none => s.takeCell i y
  | .bumpBad k =>
    match lookupAt s.tests.bumps i with
    | some b => s.endBump i b .aborted 3 noRise k.ctorIdx .recovery fun _ => y
    | none => s.takeCell i y
  | .recoveryValue v =>
    match lookupAt s.tests.recoveries i with
    | some start =>
      if y.chan.cleared v then s.endRecovery i start 0 fun s => s.moveChannel i fun _ => s.returned y
      else s.takeCell i y
    | none => s.takeCell i y
  | .recoveryBad =>
    match lookupAt s.tests.recoveries i with
    | some start => s.endRecovery i start 2 fun s => s.takeCell i y
    | none => s.takeCell i y
  | .calRaw raw cause =>
    match lookupAt s.tests.cals i with
    | none => s.takeCell i y
    | some c =>
      match cause with
      | some k => s.endCal i c .aborted 3 (leBytes 2 0) (leBytes 2 0) k.ctorIdx fun _ => y
      | none =>
        let c' := { c with samples := c.samples ++ [raw] }
        if c'.samples.length < calSamples then
          { s.takeCell i y with tests.cals := storeAt s.tests.cals i c' }
        else s.judgeCal i y c'

/-- One reading of one channel, whole (R54, R56): record update, which each reading makes (R50), news, reports, and the Test
Unit's part. -/
def State.reading (s : State) (i : Nat) (r : RawReading) : State :=
  match s.cell? i with
  | some x =>
    let (y, p) := x.read r
    (s.handlePassed i y p).bump (channelBase + i * channelSize)
  | none => s

/-- The channel in use that names a head and slot, if it is attached (R54). -/
def State.channelAt (s : State) (a slot : Nat) : Option Nat :=
  (s.air.channels.find? fun p => decide (p.2.head = a) && decide (p.2.slot = slot) && s.attached p.2).map Prod.fst

/-! ### Self checks (R102) -/

/-- The next unskipped step after a step. -/
def CheckRec.nextStep (c : CheckRec) (after : Nat) : Option Nat :=
  [1, 2, 3, 4].find? fun k => decide (after < k) && !c.skip.testBit (k - 1)

/-- The step command of a head's POLL, as it is formed: NONE for the first after the take, then the current step, whose timer
starts when its command is first sent. -/
def State.stepCommand (s : State) (a : Nat) : Nat × State :=
  match lookupAt s.tests.checks a with
  | none => (0, s)
  | some c =>
    if c.primed then
      match c.step.orElse fun _ => c.nextStep 0 with
      | some k =>
        (k, { s with
          tests.checks := storeAt s.tests.checks a { c with step := some k, timer := some (c.timer.getD s.now) } })
      | none => (0, s)
    else (0, { s with tests.checks := storeAt s.tests.checks a { c with primed := true } })

/-- The ZERO step fails by tolerance: its value differs from some attached channel's Z by more than the zero tolerance. -/
def State.zeroFails (s : State) (a value : Nat) : Bool :=
  s.air.channels.any fun p =>
    decide (p.2.head = a) && s.attached p.2
      && (decide (p.2.zero + s.supply.policy.zeroTolerance < value)
        || decide (value + s.supply.policy.zeroTolerance < p.2.zero))

/-- A self-check report of a valid reply to a POLL that carried `carried` (R102, R103). -/
def State.checkReport (s : State) (a carried step verdict value : Nat) : State :=
  match lookupAt s.tests.checks a with
  | none => s
  | some c =>
    if c.step = some step ∧ carried = step ∧ (verdict = 1 ∨ verdict = 2) then
      let c' := { c with values := storeAt c.values step value }
      if verdict = 2 then s.endCheck a .failed step c'.bytes
      else if step = 3 ∧ s.zeroFails a value then s.endCheck a .failed 0x43 c'.bytes
      else
        match c'.nextStep step with
        | some k => { s with tests.checks := storeAt s.tests.checks a { c' with step := some k, timer := none } }
        | none => s.endCheck a .ok 0 c'.bytes
    else s

end Sys2Proof.Machine
end

