-- ==== Sys2Proof/Machine/EvacCore.lean ====
section
/-! DEFINITION. The Evacuation Unit's machine: counts, muster reports, entry to ALERTING and ASKING, triggers, conversion
(R154 to R163), and the finishing of the hand-offs of one event. -/

namespace Sys2Proof.Machine

open Sys2Proof.Config

/-! ### Muster (R158, R159) -/

/-- ALERTING, MUSTERING, ACCOUNTED or OVERDUE. -/
def EvacState.mustering? : EvacState → Bool
  | .quiet | .asking => false
  | .alerting | .mustering | .accounted | .overdue => true

/-- In-use roster entries with a property. -/
def State.countMiners (s : State) (p : Miner → Bool) : Nat := (s.people.roster.filter fun x => p x.2).length

/-- Forms the four muster counts and, when one changes, shows them in the summary block (R158). -/
def State.formCounts (s : State) : State :=
  let safe := s.countMiners fun m => decide (m.muster = .safe)
  let open' := s.countMiners fun m => decide (m.muster = .required)
  let assist := s.countMiners (·.assist)
  let e := { s.evac with safe := safe, unaccounted := open', required := safe + open', assist := assist }
  if e = s.evac then s else ({ s with evac := e } : State).bumpSummary

/-- The machine state changes and is shown (R153). -/
def State.setEvac (s : State) (st : EvacState) : State :=
  if s.evac.state = st then s else ({ s with evac.state := st } : State).bumpSummary

/-- The judgement of the counts (R158). -/
def State.judgeMuster (s : State) : State :=
  match s.evac.state with
  | .mustering | .overdue => if s.evac.unaccounted = 0 then s.setEvac .accounted else s
  | .accounted =>
    if s.evac.unaccounted = 0 then s else s.setEvac (if s.evac.deadlinePassed then .overdue else .mustering)
  | .quiet | .asking | .alerting => s

/-- EVAC_STATE_CHANGE and, on an entry into OVERDUE, MUSTER_OVERDUE (R158, R165). -/
def State.logEvacState (s0 s : State) : State :=
  let b := s0.evac.state
  let a := s.evac.state
  let s1 := s.appendIf (!decide (b = a)) 0x82 clsDistrict 0 b.ctorIdx a.ctorIdx
  s1.appendIf (!decide (b = a) && decide (a = .overdue)) 0x84 clsDistrict 0 s.evac.unaccounted s.evac.required

/-- What EVACUATION tells of: the machine state, the drill flag and the counts (R165). -/
def State.evacShown (s : State) : EvacState × Bool × Nat × Nat × Nat × Nat :=
  (s.evac.state, s.evac.drill, s.evac.required, s.evac.safe, s.evac.unaccounted, s.evac.assist)

/-- EVACUATION, once, when the event changed the machine, the drill flag, a count or muster fields (R165). -/
def State.raiseEvac (s0 s : State) (fields : Bool) : State :=
  s.raiseOnceIf (fields || !decide (s0.evacShown = s.evacShown)) .evacuation 0

/-- A roster entry's muster fields after a report of a change of its state or zone (the table of R159).
DEDUCED, log entry 30. -/
def State.musterAfter (s : State) (m : Miner) : Miner :=
  let atExit : Bool := match m.zone with
    | some z => decide ((s.zoneRec z).kind = .exit)
    | none => false
  match m.muster, m.state with
  | .required, .atRefuge | .required, .out => { m with muster := .safe }
  | .notRequired, .present => { m with muster := .required }
  | .notRequired, .atRefuge => { m with muster := .safe }
  | .safe, .present => if atExit then m else { m with muster := .required, accounted := false }
  | _, _ => m

/-- The EVACUATE condition after a report: asserted or replaced while REQUIRED, ended otherwise (R160). -/
def State.judgeEvacuate (s : State) (i : Nat) : State :=
  match s.miner? i with
  | some m => if m.muster = .required then s.assertEvacuate i m else s.endCond (.miner i) .evacuate
  | none => s

/-- The People Unit's report of an entry (R159): a change of state or zone (`moved`), and a taken HELP press. -/
def State.musterReport (s0 : State) (i : Nat) (moved help : Bool) : State :=
  if s0.evac.state.mustering? then
    match s0.miner? i with
    | some m =>
      let m1 := if moved then s0.musterAfter m else m
      let assist := help && !m.assist
      let m2 := if assist then { m1 with assist := true } else m1
      let s1 := ((s0.putMuster i m2).judgeEvacuate i).formCounts.judgeMuster
      let s2 := State.logEvacState s0 (State.raiseEvac s0 s1 !decide (m2 = m))
      s2.appendIf assist 0x86 clsRoster i (orFF m2.zone) m2.muster.ctorIdx
    | none =>
      let s1 := s0.formCounts.judgeMuster
      State.logEvacState s0 (State.raiseEvac s0 s1 false)
  else s0

/-! ### The machine (R154 to R157, R163) -/

/-- The overlay of a machine state and drill flag (R153). -/
def overlayOf (st : EvacState) (drill : Bool) : Overlay :=
  if st.mustering? then (if drill then .drill else .evacuate) else .none

/-- Gives the Zone Unit the overlay and the Vehicle Unit the flag that the machine now calls for (R153). -/
def State.giveFlags (s : State) : State :=
  (s.giveOverlay (overlayOf s.evac.state s.evac.drill)).giveVehicleFlag
    (!decide (s.evac.state = .quiet) && !s.evac.drill)

/-- An entry's muster fields at the muster setup (R157, step 2). -/
def Miner.setup (m : Miner) : Miner :=
  { m with
    muster := match m.state with
      | .present | .lost => .required
      | .atRefuge => .safe
      | .out | .unseen => .notRequired
    accounted := false
    assist := decide (m.call = some .help) }

/-- The entry to ALERTING (R157). -/
def State.enterAlerting (s0 : State) (drill : Bool) : State :=
  let s1 : State :=
    { s0 with
      evac :=
        { s0.evac with
          state := .alerting, drill := drill, askingZone := none, askTimer := none
          deadline := some ⟨s0.now, s0.supply.policy.musterDeadline * 60000⟩
          deadlinePassed := false, roundAtEntry := s0.loop.round.isSome, roundEnds := 0 }
      supply.retained.evacActive := true
      supply.retained.drill := drill }
  let s2 := forEach (keysOf s1.people.roster)
    (fun i s => match s.miner? i with
      | some m => s.putMuster i m.setup
      | none => s) s1.bumpSummary
  let s3 := forEach (keysOf s2.people.roster) (fun i s => s.judgeEvacuate i) s2
  let s4 := s3.formCounts.giveFlags
  State.logEvacState s0 (s4.raiseOnce .evacuation 0)

/-- The entry to ASKING for a zone's gas (R155). -/
def State.enterAsking (s0 : State) (z : Nat) : State :=
  let s1 : State :=
    { s0 with
      evac :=
        { s0.evac with
          state := .asking, askingZone := some z, askedAt := s0.now
          askTimer := some ⟨s0.now, s0.supply.policy.askWindow * 1000⟩ } }
  State.logEvacState s0 (s1.bumpSummary.giveFlags.raiseOnce .evacuation 0)

/-- The conversion of a drill by a trigger (R163); its conditions are replaced in ascending index. DESIGN CHOICE, log entry 64. -/
def State.convertDrill (s0 : State) (source : Nat) : State :=
  let s1 := ({ s0 with evac.drill := false, supply.retained.drill := false } : State).bumpSummary
  let s2 := s1.append 0x83 clsDistrict 0 source s1.evac.unaccounted
  let s3 := forEach (keysOf s2.people.roster)
    (fun i s => match s.miner? i with
      | some m => if m.muster = .required then s.assertEvacuate i m else s
      | none => s) s2
  s3.giveFlags.raiseOnce .evacuation 0

/-- Trigger sources and effects (R165). -/
def srcHost : Nat := 0
def srcPull : Nat := 1
def srcAuto : Nat := 2
def srcRetained : Nat := 3

/-- A PULL trigger with its subject (R154). -/
def State.takePull (s : State) (cls index : Nat) : State :=
  let log (effect : Nat) (s : State) : State := s.append 0x80 cls index (srcPull * 256) effect
  if !s.running then log 6 s
  else
    match s.evac.state with
    | .quiet => (log 0 s).enterAlerting false
    | .asking => (log 2 s).enterAlerting false
    | .alerting | .mustering | .accounted | .overdue =>
      if s.evac.drill then (log 3 s).convertDrill srcPull else log 4 s

/-- An AUTO trigger: a rise of a zone's evac-gas flag, or one found at the entry to RUNNING (R154, R155). -/
def State.takeGas (s : State) (z : Nat) : State :=
  let log (effect : Nat) (s : State) : State := s.append 0x81 clsZone z s.supply.policy.evacPolicy.ctorIdx effect
  if s.evac.declined.contains z then log 5 s
  else if !s.running then log 6 s
  else
    match s.evac.state with
    | .quiet =>
      match s.supply.policy.evacPolicy with
      | .off => log 4 s
      | .auto => (log 0 s).enterAlerting false
      | .ask => (log 1 s).enterAsking z
    | .asking => (log 2 s).enterAlerting false
    | .alerting | .mustering | .accounted | .overdue =>
      if s.evac.drill then (log 3 s).convertDrill srcAuto else log 4 s

/-- A hand-off to the Evacuation Unit is taken (R86, R143, R154, R159). -/
def State.takeTask (s : State) : EvacTask → State
  | .pull cls index => s.takePull cls index
  | .gasRise z => s.takeGas z
  | .gasFall z => { s with evac.declined := removeNat s.evac.declined z }
  | .muster i moved help => s.musterReport i moved help

/-- The end of a poll round reaches the machine: in ALERTING, the end of the first round begun after the entry judges the
counts (R157). -/
def State.evacRoundEnd (s0 : State) : State :=
  if s0.evac.state = .alerting then
    let s1 : State := { s0 with evac.roundEnds := s0.evac.roundEnds + 1 }
    if (if s1.evac.roundAtEntry then 2 else 1) ≤ s1.evac.roundEnds then
      let s2 := s1.setEvac
        (if s1.evac.unaccounted = 0 then .accounted else if s1.evac.deadlinePassed then .overdue else .mustering)
      State.logEvacState s0 (s2.raiseOnce .evacuation 0)
    else s1
  else s0

/-! ### Finishing an event -/

/-- The next hand-off that an event left waiting: the tests that end for cover (R93), the judgements of refuges (R145), the
Vehicle Unit's evaluations of roster entries (R106, R135), the one recompute (R148), and the Evacuation Unit's, in order.
DESIGN CHOICE, log entry 9. -/
def State.handOff (s : State) : Option State :=
  match s.work.aborts, s.work.refuges, s.work.meets, s.work.recompute, s.work.evac with
  | (t, z, k) :: rest, _, _, _, _ => some (State.abortTest { s with work.aborts := rest } t z k)
  | [], (i, old) :: rest, _, _, _ => some (State.judgeRefuge { s with work.refuges := rest } i old)
  | [], [], (i, gone) :: rest, _, _ => some (State.takeMeet { s with work.meets := rest } i gone)
  | [], [], [], true, _ => some s.recompute
  | [], [], [], false, t :: ts => some (State.takeTask { s with work.evac := ts } t)
  | [], [], [], false, [] => none

/-- Makes the hand-offs that an event left waiting, while the part is in SETUP or RUNNING. -/
def State.finishIn : Nat → State → State
  | 0, s => s
  | n + 1, s =>
    if s.active then
      match s.handOff with
      | some s' => State.finishIn n s'
      | none => s
    else s

/-- The Order Unit takes the end reports of an event, in order (R15). DEDUCED, log entry 43. -/
def State.takeEnds (s : State) : State := s.work.ends.foldl State.takeEnd { s with work.ends := [] }

/-- Finishes an event: the hand-offs, the end reports, then the gathered record updates (R4) and log entries (R21); nothing
waits afterwards. DESIGN CHOICE, log entry 9. -/
def State.finish (s : State) : State := { (State.finishIn handOffFuel s).takeEnds.flush with work := Work.none }

/-- Events of their own, made in the middle of another event's work: that event's hand-offs, end reports and log entries so far
come first; its record updates and the causes it has raised go on being gathered after them. DEDUCED, log entry 40. -/
def State.amid (s : State) (f : State → State) : State :=
  let met := (State.finishIn handOffFuel s).takeEnds
  let told := (met.work.news ++ met.work.late).foldl (fun s n => s.appendNow n) { met with work := Work.none }
  if met.active then
    let t := f told
    if t.active then
      { t with work := { Work.none with dirty := met.work.dirty, guests := met.work.guests, raised := met.work.raised } }
    else t
  else met

/-- One event of the part's blocks: in BOOT and HALTED nothing happens (R177); a check bit of the state inside that does not
match leads to HALTED with INTERNAL_CHECK; otherwise the event is made and finished, and the bytes it changed have valid check
bits (R6). -/
def State.event (s : State) (f : State → State) : State :=
  if s.active then s.checked fun s => State.scrub s (f s).finish else s

end Sys2Proof.Machine
end

