-- ==== Sys2Proof/Machine/People.lean ====
section
/-! DEFINITION. The People Unit: the roster's record updates and hand-offs, sightings, calls, pages, the lost timer and
delivery counting (R105 to R124). -/

namespace Sys2Proof.Machine

open Sys2Proof.Config

def codePage : Nat := 0x30

/-! ### Counts and news -/

/-- The occupant count of a zone in use, written in its record when it has changed (R111). -/
def State.countOccupants (s : State) (z : Nat) : State :=
  let r := s.zoneRec z
  let n := s.countMiners fun m => decide (m.state = .present) && decide (m.zone = some z)
  if r.inUse then s.putZoneAs .people z { r with occupants := n } else s

def Miner.side (o : Option Miner) : Nat := sideOf (o.map fun m => (m.state.ctorIdx, m.zone))

/-- The entry was in use, is in use, and holds another tag: it was restarted (R109). DESIGN CHOICE, log entry 20. -/
def minerRestarted (before after : Option Miner) : Bool :=
  match before, after with
  | some b, some a => !decide (b.tag = a.tag)
  | _, _ => false

/-- What TAG_STATE tells of: use, tag, state, zone, page fields and battery-low flag (R124). -/
def Miner.newsworthy (m : Miner) : Miner :=
  { m with person := 0, lastReader := none, strength := 0, lastSeen := none, call := none, callTime := none,
           lastSeq := none, muster := .notRequired, accounted := false, assist := false, motionless := false }

/-- TAG_STATE_CHANGE for a change of state or zone and for entries coming into or leaving use: one for an enrolment with its first
move, and both of a restart (R124). DESIGN CHOICE, log entry 20. -/
def State.logMinerSide (s : State) (i : Nat) (b a : Option Miner) : State :=
  if minerRestarted b a then
    (s.append 0x50 clsRoster i (Miner.side b) 0xFFFF).append 0x50 clsRoster i 0xFFFF (Miner.side a)
  else s.appendIf (!decide (Miner.side b = Miner.side a)) 0x50 clsRoster i (Miner.side b) (Miner.side a)

/-- The TAG_BATTERY event of a sighting. -/
def State.logBattery (s : State) (i : Nat) (b a : Option Miner) : State :=
  match a with
  | some m =>
    let was := (b.map (·.batteryLow)).getD false
    s.appendIf (!minerRestarted b a && !decide (was = m.batteryLow)) 0x51 clsRoster i m.batteryLow.toNat 0
  | none => s

/-! ### Pages (R116, R117) -/

/-- The page fields made absent. -/
def Miner.unpaged (m : Miner) : Miner := { m with pageTake := none, pageCode := none, pageAck := none }

/-- What follows the record update that ends a page: the condition ends, PAGE_END is logged and the end is reported
(R117). The time in whole seconds: DESIGN CHOICE, log entry 70. -/
def State.closePage (s : State) (i : Nat) (p : PageRec) (r : OrderResult) : State :=
  let vals := [BitVec.ofNat 8 p.deliveries, BitVec.ofNat 8 (orFF p.reader)]
    ++ leBytes 2 (elapsed s.now p.start / 1000)
  let s1 := ({ s with people.pages := dropAt s.people.pages i } : State).endCond (.miner i) .page
  (s1.append 0x54 clsRoster i r.ctorIdx p.message).endOrder codePage .roster i r 0 vals

/-- A page ends by itself: its fields become absent in one record update, then the rest (R117). -/
def State.endPage (s : State) (i : Nat) (r : OrderResult) : State :=
  match lookupAt s.people.pages i, s.miner? i with
  | some p, some m => ((s.putMiner i m.unpaged).raiseOnce .tagState i).closePage i p r
  | _, _ => s

/-! ### The record update and hand-offs of one entry (R106) -/

/-- Judges the WITHDRAW condition of an entry after a change of its state or zone (R111). DEDUCED, log entry 29. -/
def State.judgeWithdraw (s : State) (i : Nat) (b a : Option Miner) : State :=
  let trippedZone (o : Option Miner) : Option (Nat × TripCause) :=
    match o with
    | some m =>
      if m.state = .present then m.zone.bind fun z => (lookupAt s.people.tripped z).map fun c => (z, c) else none
    | none => none
  if Miner.side b = Miner.side a then s
  else
    let s1 := s.endCond (.miner i) .withdraw
    match trippedZone a with
    | some (z, c) =>
      let (target, next) := s1.escapeBytes (some z)
      s1.assertCond (.miner i) .withdraw c.ctorIdx target next
    | none => s1

/-- What else an event of one entry brings with its record update: a taken press as its event values, whether it was HELP,
and a page that ends. -/
structure MinerExtra where
  press : Option (Nat × Nat)
  help : Bool
  page : Option (PageRec × OrderResult)
  deriving DecidableEq, Repr

def MinerExtra.none : MinerExtra := { press := Option.none, help := false, page := Option.none }

/-- One entry's change: one record update, the hand-offs in the order of R106 (the counts and conditions at once, those to the
Route, Vehicle and Evacuation Units at the end of the event's own work), TAG_STATE and CALL, and, logged after the hand-offs, the
events in the order of Table 6-3 and the end of a page. `new` is none when the entry leaves use. -/
def State.commitMiner (s : State) (i : Nat) (new : Option Miner) (x : MinerExtra) : State :=
  let old := s.miner? i
  let restarted := minerRestarted old new
  let gone := restarted || (old.isSome && new.isNone)
  let moved := restarted || !decide (Miner.side old = Miner.side new)
  let s1 := match new with
    | some m => s.putMiner i m
    | none => s.dropMiner i
  let ended := if gone then s1.endAllConds (.miner i) else s1
  let zones := ((old.bind (·.zone)).toList ++ (new.bind (·.zone)).toList).foldl insertNat []
  let counted := forEach zones (fun z s => s.countOccupants z) ended
  let withdrawn := counted.judgeWithdraw i old new
  let refuged := if moved then withdrawn.recountRefuges else withdrawn
  let met := if moved then refuged.handMeet i gone else refuged
  let mustered := if moved || x.help then met.handEvac (.muster i moved x.help) else met
  let raised := mustered.raiseOnceIf (!decide (old.map Miner.newsworthy = new.map Miner.newsworthy)) .tagState i
  let called := raised.raiseIf (!decide (old.bind (·.call) = new.bind (·.call))) .call
  called.tellLate fun s =>
    let logged := (s.logMinerSide i old new).logBattery i old new
    let pressed := match x.press with
      | some (a, b) => logged.append 0x52 clsRoster i a b
      | Option.none => logged
    match x.page with
    | some (p, r) => pressed.closePage i p r
    | Option.none => pressed

/-- Frees an entry: the effects of REMOVE (R108, R109). -/
def State.freeMiner (s : State) (i : Nat) : State := s.commitMiner i none .none

/-- The return to QUIET: every entry with person number 0 in state OUT is freed, in ascending index (R108), and its
TAG_STATE_CHANGE logged before the Evacuation Unit goes on (R162, steps 7 and 8). -/
def State.freeOut (s : State) : State :=
  (forEach ((s.people.roster.filter fun p => decide (p.2.person = 0) && decide (p.2.state = .out)).map Prod.fst)
    (fun i s => s.freeMiner i) s).tellNow

/-- An entry coming into use (R109). -/
def Miner.fresh (tag person : Nat) : Miner :=
  { tag := tag, person := person, state := .unseen, zone := none, lastReader := none, strength := 0, lastSeen := none,
    call := none, callTime := none, lastSeq := none, pageTake := none, pageCode := none, pageAck := none,
    muster := .notRequired, accounted := false, assist := false, batteryLow := false, motionless := false }

/-- An entry enters the state given, with a page in flight ended NO_TARGET at OUT and an automatic entry freed at OUT while
the machine is QUIET (R108, R112, R117); the entry into OUT and the leaving of use are each logged, DESIGN CHOICE, log entry 20. -/
def State.minerEnters (s : State) (i : Nat) (m : Miner) (st : MinerState) : State :=
  let page := if st = .out then (lookupAt s.people.pages i).map fun p => (p, OrderResult.noTarget) else none
  let m1 := { (if page.isSome then m.unpaged else m) with state := st }
  let s1 := s.commitMiner i (some m1) { MinerExtra.none with page := page }
  if st = .out ∧ m.person = 0 ∧ s1.evac.state = .quiet then s1.freeMiner i else s1

/-- The lost timer of an entry has run out (R112). -/
def State.minerOverdue (s : State) (m : Miner) : Bool :=
  (decide (m.state = .present) || decide (m.state = .atRefuge)) &&
    match m.lastSeen with
    | some t => s.due t (s.supply.policy.lostTime * 1000)
    | none => false

/-- A lost expiry, when it is due (R112). -/
def State.minerLost (s : State) (i : Nat) : State :=
  match s.miner? i with
  | some m =>
    if s.minerOverdue m then
      let atExit : Bool := match m.zone with
        | some z => decide ((s.zoneRec z).kind = .exit)
        | none => false
      s.minerEnters i m (if m.state = .present ∧ atExit then .out else .lost)
    else s
  | none => s

/-! ### Sightings (R105, R106, R108, R110, R114, R119) -/

/-- Divisors of the poll plan (Table 2-3). -/
def headDivisor (k : HeadKind) (m : SupplyMode) : Nat :=
  match k, m with
  | .reader, .battery | .sounder, .battery => 2
  | .reader, .reserve | .sounder, .reserve => 4
  | _, _ => 1

/-- The staleness interval in milliseconds (R110). -/
def State.staleAfter (s : State) : Nat := 2 * s.supply.policy.pollPeriod * headDivisor .reader s.loop.rates

/-- The zone in use whose reader list names a reader (R105). -/
def State.readerZone (s : State) (a : Nat) : Option Nat :=
  (s.zone.zones.find? fun p => p.2.inUse && p.2.readers.contains a).map Prod.fst

/-- A sighting moves a tag: by the strength margin, by staleness, or from UNSEEN, LOST or OUT (R110, R128). -/
def State.sightingMoves (s : State) (away : Bool) (strength seen : Nat) (last : Option Clock) : Bool :=
  away || decide (strength + strengthMargin ≤ seen) ||
    match last with
    | some t => decide (s.staleAfter ≤ elapsed s.now t)
    | none => true

/-- A miner's zone and state resolved against the zone of the reader that made the sighting (R110). -/
def State.resolveMiner (s : State) (m : Miner) (z reader seen : Nat) : Miner :=
  let here := (decide (m.state = .present) || decide (m.state = .atRefuge)) && decide (m.zone = some z)
  let away := decide (m.state = .unseen) || decide (m.state = .lost) || decide (m.state = .out)
  let heard := { m with strength := seen, lastSeen := some s.now, lastReader := some reader }
  if here then heard
  else if s.sightingMoves away m.strength seen m.lastSeen then
    { heard with
      zone := some z
      state := if (s.zoneRec z).kind = .refuge then .atRefuge else .present }
  else m

/-- A tag's acknowledgement of a kind is taken: a condition whose present content has been delivered (R119). -/
def State.ackTaken (s : State) (i : Nat) (k : DownKind) : Bool :=
  (s.condition? (.miner i) k).isSome && decide (1 ≤ s.deliveries (.miner i) k)

/-- The effect of an acknowledgement on conditions, and whether it ends a page (R119). -/
def State.takeAck (s : State) (i : Nat) (ack : Option Nat) : State × Bool :=
  match ack.bind DownKind.ofCode with
  | none => (s, false)
  | some k =>
    if s.ackTaken i k then
      match k with
      | .page => (s, ((lookupAt s.people.pages i).map (·.ack)).getD false)
      | .callTaken | .callAnswer => (s.endCond (.miner i) k, false)
      | .evacuate | .withdraw | .vehicleNear => (s.ackCond (.miner i) k, false)
      | .vehicleCommand => (s, false)
    else (s, false)

/-- A pressed code outranks the pending call (R114). -/
def outranks (pending : Option CallCode) (c : CallCode) : Bool :=
  match pending with
  | none => true
  | some p => decide (p.ctorIdx < c.ctorIdx)

/-- The press of a sighting, if one is taken (R114). -/
def Miner.press (m : Miner) (call seq : Nat) : Option CallCode :=
  match CallCode.ofLine call with
  | some c => if m.lastSeq = some seq then none else some c
  | none => none

/-- The call fields of a sighting taken into the record (R114). -/
def State.takeCall (s : State) (m : Miner) (call seq : Nat) : Miner :=
  let m1 := { m with lastSeq := some seq }
  match m.press call seq with
  | some c => if outranks m.call c then { m1 with call := some c, callTime := some s.stamp } else m1
  | none => m1

/-- A sighting of a tag held by an entry, or newly enrolled in it with the record given: steps 2 to 5 of R106 and what
follows them. -/
def State.sightEntry (s : State) (i : Nat) (m0 : Miner) (z reader : Nat) (x : Sighting) : State :=
  let flagged := { m0 with batteryLow := x.batteryLow, motionless := x.motionless }
  let placed := s.resolveMiner flagged z reader x.strength
  let (s1, pageOk) := s.takeAck i x.ack
  let page := if pageOk then (lookupAt s1.people.pages i).map fun p => (p, OrderResult.ok) else none
  let unpaged := if page.isSome then placed.unpaged else placed
  let m := s1.takeCall unpaged x.call x.seq
  let press := placed.press x.call x.seq
  let s2 := match press with
    | some c => s1.assertCond (.miner i) .callTaken c.line absent8 absent8
    | none => s1
  s2.commitMiner i (some m)
    { press := press.map fun c => (c.line * 256 + x.seq, (outranks placed.call c).toNat)
      help := decide (press = some .help)
      page := page }

/-- One miner sighting: whether it was dropped because the roster is full, and the state after it (R105, R106, R108). -/
def State.minerSighting (s : State) (reader : Nat) (x : Sighting) : State × Bool :=
  match (if s.active then s.readerZone reader else none) with
  | none => (s, false)
  | some z =>
    match s.people.roster.find? fun p => decide (p.2.tag = x.tag) with
    | some (i, m) => ((s.sightEntry i m z reader x).finish, false)
    | none =>
      match (List.range rosterCount).find? fun i => (lookupAt s.people.roster i).isNone with
      | some i => ((s.sightEntry i (Miner.fresh x.tag 0) z reader x).finish, false)
      | none => (s, true)

/-- A tag id of a miner (R105). -/
def isMinerTag (t : Nat) : Bool := decide (1 ≤ t) && decide (t ≤ 0x7FFFFF)

/-- A tag id of a vehicle unit (R105). -/
def isVehicleTag (t : Nat) : Bool := decide (0x800000 ≤ t) && decide (t ≤ 0xFFFFFE)

/-- The event of sightings dropped in one reply: the first tag and the number dropped (R108, R127). -/
def State.logUnknown (s : State) (kind reader : Nat) (dropped : List Nat) : State :=
  match dropped with
  | [] => s
  | t :: _ => s.appendIf s.active kind clsHead reader (t % 65536) dropped.length

/-- The miner sightings of a reply, in order, and UNKNOWN_TAG at its end (R105, R108). -/
def State.minerSightings (s : State) (reader : Nat) (xs : List Sighting) : State :=
  let (s1, dropped) := (xs.filter fun x => isMinerTag x.tag).foldl
    (fun (p : State × List Nat) x =>
      let (s', d) := p.1.minerSighting reader x
      (s', if d then p.2 ++ [x.tag] else p.2)) (s, [])
  s1.logUnknown 0x55 reader dropped

/-! ### Delivery counting (R122) -/

/-- The delivery limits after the counts of a reply (R122). -/
def State.deliveryLimits (s : State) (reader : Nat) (carried : List DownEntry) : State :=
  carried.foldl (fun s e =>
    match e.ref, e.kind with
    | .miner i, .callTaken => if 2 ≤ s.deliveries e.ref e.kind then s.endCond (.miner i) .callTaken else s
    | .miner i, .callAnswer => if 4 ≤ s.deliveries e.ref e.kind then s.endCond (.miner i) .callAnswer else s
    | .miner i, .page =>
      match lookupAt s.people.pages i with
      | some p =>
        let p' := { p with deliveries := min 255 (p.deliveries + 1), reader := some reader }
        let s1 : State := { s with people.pages := storeAt s.people.pages i p' }
        if p.ack then s1 else s1.endPage i .ok
      | none => s
    | _, _ => s) s

/-- The delivery counting of a valid reply to a POLL that carried entries: each entry still marked sent is counted, in one
record update of the list, and the limits are applied (R122). -/
def State.countDeliveries (s : State) (reader : Nat) : State :=
  match s.listPosition reader with
  | none => s
  | some pos =>
    match lookupAt s.people.lists pos with
    | none => s
    | some l =>
      let marked := l.entries.filter fun e => e.sent && !e.ended
      let entries := l.entries.map fun e =>
        if e.sent then { e with count := min 255 (e.count + 1), lastReader := some reader, sent := false } else e
      (s.putList pos { l with entries := entries }).deliveryLimits reader marked

end Sys2Proof.Machine
end

