-- ==== Sys2Proof/Machine/Haul.lean ====
section
/-! DEFINITION. The Vehicle Unit's record changes: sightings, lost expiries and the counting of polls without an echo (R126 to
R134). -/

namespace Sys2Proof.Machine

open Sys2Proof.Config

/-- A vehicle entry coming into use (R126). -/
def Vehicle.fresh (tag number : Nat) (drive : DriveKind) : Vehicle :=
  { tag := tag, number := number, drive := drive, state := .unseen, zone := none, lastReader := none, strength := 0,
    lastSeen := none, speed := 0, moving := false, onboard := 0, batteryLow := false, host := .none, zoneCmd := .none,
    encounterCmd := .none, evacCmd := .none, onboardCmd := .none, crowdedCmd := .none, effective := .none, acked := .none,
    crowded := false, unacked := 0 }

/-- The encounter list a change of a vehicle leaves, with the pairs left out: its entries removed at once when it is LOST,
OUT, gone or restarted (R137), and a vehicle evaluation otherwise (R135). -/
def State.encountersOf (s : State) (i : Nat) (new : Option Vehicle) : List Encounter × List (Nat × Nat) :=
  let without := s.haul.encounters.filter fun e => !decide (e.vehicle = i)
  match new with
  | none => (without, [])
  | some v =>
    if vehicleRestarted (s.vehicle? i) new || decide (v.state = .lost) || decide (v.state = .out) then (without, [])
    else s.vehicleEvaluation i v

/-- The zones, state and onboard reading that the Zone Unit judges (R76, R87). -/
def vehicleForZones (o : Option Vehicle) : Option (Nat × Option Nat × Nat) :=
  o.map fun v => (v.state.ctorIdx, v.zone, v.onboard)

/-- One vehicle's change from step 5 of R127 on: encounters, components, one record update, and what follows. `new` is none
when the entry leaves use. -/
def State.commitVehicle (s : State) (i : Nat) (new : Option Vehicle) : State :=
  let old := s.vehicle? i
  let (list, left) := s.encountersOf i new
  let s1 := s.putEncounters list
  let s2 := match new with
    | some v => s1.putVehicle i (s1.dressVehicle i { v with crowded := !left.isEmpty })
    | none => s1.dropVehicle i
  let zones := ((old.bind (·.zone)).toList ++ (new.bind (·.zone)).toList).foldl insertNat []
  State.settleVehicles s s2 [i] left fun s3 =>
    let counted := forEach zones (fun z s => s.countVehicles z) s3
    if vehicleForZones old = vehicleForZones new ∧ vehicleRestarted old new = false then counted
    else counted.evalZones zones

/-- A vehicle's zone and state resolved against the zone of the reader that made the sighting (R128). -/
def State.resolveVehicle (s : State) (v : Vehicle) (z reader seen : Nat) : Vehicle :=
  let here := decide (v.state = .present) && decide (v.zone = some z)
  let heard := { v with strength := seen, lastSeen := some s.now, lastReader := some reader }
  if here then heard
  else if s.sightingMoves (!decide (v.state = .present)) v.strength seen v.lastSeen then
    { heard with zone := some z, state := .present }
  else v

/-- The vehicle fields of a sighting taken into the record (R129, R133). -/
def Vehicle.takeFields (v : Vehicle) (f : VehicleFields) : Vehicle :=
  { v with
    speed := min f.speed maxSpeed
    moving := decide (movingSpeed ≤ f.speed)
    onboard := min f.onboard maxOnboard
    acked := if f.echo ≤ 3 then Command.ofCode f.echo else v.acked }

/-- One vehicle sighting: whether it was dropped, and the state after it (R127). -/
def State.vehicleSighting (s : State) (reader : Nat) (x : Sighting) : State × Bool :=
  match (if s.active then s.readerZone reader else none) with
  | none => (s, false)
  | some z =>
    if (s.zoneRec z).kind = .refuge then (s, false)
    else
      match s.haul.vehicles.find? fun p => decide (p.2.tag = x.tag) with
      | none => (s, true)
      | some (i, v) =>
        let placed := s.resolveVehicle { v with batteryLow := x.batteryLow } z reader x.strength
        let taken := match x.vehicle with
          | some f => placed.takeFields f
          | none => placed
        ((s.commitVehicle i (some taken)).finish, false)

/-- The vehicle sightings of a reply, in order, and UNKNOWN_VEHICLE at its end (R127). -/
def State.vehicleSightings (s : State) (reader : Nat) (xs : List Sighting) : State :=
  let (s1, dropped) := (xs.filter fun x => isVehicleTag x.tag).foldl
    (fun (p : State × List Nat) x =>
      let (s', d) := p.1.vehicleSighting reader x
      (s', if d then p.2 ++ [x.tag] else p.2)) (s, [])
  s1.logUnknown 0x65 reader dropped

/-- The lost timer of a vehicle has run out (R128). -/
def State.vehicleOverdue (s : State) (v : Vehicle) : Bool :=
  decide (v.state = .present) &&
    match v.lastSeen with
    | some t => s.due t (s.supply.policy.lostTime * 1000)
    | none => false

/-- A vehicle's lost expiry, when it is due (R128). -/
def State.vehicleLost (s : State) (i : Nat) : State :=
  match s.vehicle? i with
  | some v =>
    if s.vehicleOverdue v then
      let atExit : Bool := match v.zone with
        | some z => decide ((s.zoneRec z).kind = .exit)
        | none => false
      s.commitVehicle i (some { v with state := if atExit then .out else .lost })
    else s
  | none => s

/-- The polls that carried a vehicle's VEHICLE_COMMAND entry are counted while its condition still stands with the content
carried (R134). -/
def State.countUnacked (s : State) (carried : List DownEntry) : State :=
  carried.foldl (fun s e =>
    match e.ref, e.kind with
    | .vehicle i, .vehicleCommand =>
      match s.condition? e.ref .vehicleCommand, s.vehicle? i with
      | some c, some v =>
        if c.code = e.code ∧ c.created = e.created then
          let n := min 255 (v.unacked + 1)
          (s.putVehicle i { v with unacked := n }).appendIf (decide (n = unackedPolls)) 0x63 clsVehicle i
            v.effective.ctorIdx v.acked.ctorIdx
        else s
      | _, _ => s
    | _, _ => s) s

end Sys2Proof.Machine
end

