-- ==== Sys2Proof/Machine/LoopCore.lean ====
section
/-! DEFINITION. The Loop Controller's head records, link changes and their reports, the loop state, the poll plan and the forming
of frames (R25 to R41). -/

namespace Sys2Proof.Machine

open Sys2Proof.Config

def codeRollCall : Nat := 0x10
def codeAssign : Nat := 0x11

/-! ### Reports to the owners (R40) -/

/-- The zones in use that name a head, or that a channel of the head names (R76). -/
def State.zonesOfHead (s : State) (a : Nat) : List Nat :=
  (s.zone.zones.filter fun p =>
    p.2.inUse && (p.2.readers.contains a || p.2.sounders.contains a || (p.2.relays.map Prod.fst).contains a
      || s.air.channels.any fun c => decide (c.2.head = a) && decide (c.2.zone = some p.1))).map Prod.fst

/-- A change of a head's link state into or out of ONLINE is reported to the owners of its kind (Table 2-5). -/
def State.linkReport (s : State) (a : Nat) (kind : HeadKind) (leaving : Bool) : State :=
  let air := match kind with
    | .gas | .refuge => true
    | .reader | .relay | .sounder => false
  let s1 : State := if leaving then
      { s with
        loop.marks := removeNat s.loop.marks a
        loop.continuation := s.loop.continuation.filter fun c => !decide (c.1 = a) }
    else s
  let s2 := if leaving && air then
      ((s1.airLeaves (s1.headChannels a)).testsLeaveChannels (s1.headChannels a)).testLeavesHead a
    else s1
  let s3 := if kind = .refuge then s2.judgeRefuges fun r => decide (r.panel = a) else s2
  s3.evalZones (s3.zonesOfHead a)

/-- HEAD_LINK and HEAD_LINK_CHANGE of a change of link state (R39). -/
def State.linkNews (s : State) (a : Nat) (old new : LinkState) : State :=
  if old = new then s else (s.raise .headLink).append 0x10 clsHead a old.ctorIdx new.ctorIdx

/-- The report that follows a change of link state. -/
def State.linkFollow (s : State) (a : Nat) (kind : HeadKind) (old new : LinkState) : State :=
  if decide (old = .online) = decide (new = .online) then s else s.linkReport a kind (decide (old = .online))

/-- A head's record takes a new link state with whatever else changes in it, in one record update, with news and report. -/
def State.relink (s : State) (a : Nat) (h : Head) : State :=
  let old := (s.head a).link
  ((s.putHead a h).linkNews a old h.link).linkFollow a h.kind old h.link

/-! ### Quality history (R28, R38) -/

def appendOutcome (l : List PollOutcome) (o : PollOutcome) : List PollOutcome :=
  (if historyLength ≤ l.length then l.drop 1 else l) ++ [o]

/-- The newest outcome becomes BAD (R28). -/
def reviseNewest (l : List PollOutcome) : List PollOutcome := if l.isEmpty then l else l.dropLast ++ [.bad]

def nonGoodOf (l : List PollOutcome) : Nat := (l.filter fun o => !decide (o = .good)).length

/-- The shown fields of a history (R37, R38). -/
def Head.withHistory (h : Head) (l : List PollOutcome) : Head :=
  { h with nonGood := nonGoodOf l, newest := l.getLast?, poorLink := decide (poorLinkCount ≤ nonGoodOf l) }

/-- HEAD_LINK and POOR_LINK_CHANGE when the flag changes (R38). -/
def State.poorNews (s : State) (a : Nat) (old : Bool) (l : List PollOutcome) : State :=
  let new := decide (poorLinkCount ≤ nonGoodOf l)
  if old = new then s else (s.raise .headLink).append 0x11 clsHead a new.toNat (nonGoodOf l)

/-! ### The outcome of a poll (R35, R39) -/

/-- What one poll of a configured head brought: its outcome, the valid reply's status with whether it matches and the serial an
IDENTIFY reply carries, and the end of the last try. -/
structure PollEnd where
  outcome : PollOutcome
  reply : Option (ReplyHead × Bool × Option Nat)
  side : LoopEnd
  frame : FrameKind
  deriving DecidableEq, Repr

/-- The poll counts toward the link state: a due poll (R30). -/
def Purpose.isDue : Purpose → Bool
  | .due => true
  | .marker | .continuation _ | .interposed | .rollCall | .assignFrame | .assignCheck => false

/-- The poll is entered in the quality history (R38). -/
def Purpose.isCounted : Purpose → Bool
  | .due | .continuation _ | .interposed | .assignCheck => true
  | .marker | .rollCall | .assignFrame => false

/-- The link state after a poll (Table 2-4, R39). DEDUCED, log entry 25. -/
def linkAfter (link : LinkState) (p : Purpose) (answer : Option Bool) (missed : Nat) : LinkState :=
  match link with
  | .unconfigured | .clash => link
  | .unknown | .online | .suspect | .offline | .mismatch =>
    if !p.isCounted then link
    else
      match answer with
      | some true => if p.isDue then .online else link
      | some false => .mismatch
      | none =>
        if p.isDue then
          match link with
          | .online => .suspect
          | _ => if 3 ≤ missed then .offline else link
        else link

/-- A poll of a configured head has ended: one record update, the events in the order of R48, and the link report. A roll call's
IDENTIFY leaves the missed rounds to its classification (DEDUCED, log entry 47), and the end reached by a poll counts in the
round in progress at its reply (DESIGN CHOICE, log entry 46), with the loop position the head has then (DESIGN CHOICE, log
entry 73). -/
def State.pollDone (s : State) (a : Nat) (p : Purpose) (e : PollEnd) : State :=
  let h := s.head a
  let inner := s.headInner a
  let status := e.reply.map fun r => r.1
  let flag (f : ReplyHead → Bool) : Bool := (status.map f).getD false
  let revised := if flag (·.rejected) then reviseNewest inner.history else inner.history
  let history := if p.isCounted then appendOutcome revised e.outcome else revised
  let missed :=
    if e.reply.isSome && p.isCounted then 0
    else if e.reply.isNone && p.isDue then min 3 (h.missed + 1)
    else h.missed
  let failsafes := if flag (·.failsafe) then min 65535 (h.failsafes + 1) else h.failsafes
  let valid := e.reply.isSome
  let h1 : Head :=
    { h with
      link := linkAfter h.link p (e.reply.map fun r => r.2.1) missed
      preferred := if e.outcome = .otherEnd then e.side else h.preferred
      missed := missed
      localFault := if valid then flag (·.localFault) else h.localFault
      identified := ((e.reply.bind fun r => r.2.2).orElse fun _ => h.identified)
      failsafes := failsafes
      lastReply := if valid then some s.stamp else h.lastReply }
  let h2 := h1.withHistory history
  let s1 := (s.putHead a h2).putInner a { inner with history := history }
  let s2 := s1.appendIf (flag (·.rejected)) 0x12 clsHead a e.frame.ctorIdx 0
  let s3 := s2.linkNews a h.link h2.link
  let s4 := s3.poorNews a h.poorLink revised
  let s5 := s4.poorNews a (decide (poorLinkCount ≤ nonGoodOf revised)) history
  let s6 := s5.appendIf (flag (·.failsafe)) 0x13 clsHead a inner.lastWindow failsafes
  let s7 := s6.appendIf (h2.localFault && !h.localFault) 0x14 clsHead a 1 0
  let noted : State := match s7.loop.round with
    | none => s7
    | some r =>
      { s7 with
        loop.round := some
          { r with
            missed := if e.reply.isNone && p.isDue then r.missed ++ [a] else r.missed
            reachedA := if valid && decide (e.side = .a) then max r.reachedA h.position else r.reachedA
            reachedB := if valid && decide (e.side = .b) then min r.reachedB h.position else r.reachedB } }
  noted.linkFollow a h2.kind h.link h2.link

/-! ### Loop state (R34) -/

/-- The loop state is judged by the MARKER; a change is shown, raised, logged and reported to the Alarm Output Unit. -/
def State.judgeLoop (s : State) (heard : Bool) : State :=
  let new : LoopState := if heard then .whole else .broken
  if s.loop.state = new then s
  else
    let s1 : State := { s with loop.state := new, loop.span := if heard then none else s.loop.span }
    let s2 := (s1.bumpStatistics.bumpSummary.raise .loopBreak).append (if heard then 0x17 else 0x16) clsDistrict 0
      (s.loop.rounds.toNat % 65536) 0
    s2.judgeDistrict.judgeContacts

/-! ### Forming frames (R25, R26, R41, R69) -/

/-- The effective keepalive window (R41). -/
def State.effectiveWindow (s : State) (h : Head) : Nat := h.window * headDivisor h.kind s.loop.windows

/-- Four BCD digits as one 16-bit value, thousands highest (R69). -/
def bcd (n : Nat) : Nat :=
  let m := min n 9999
  m / 1000 * 4096 + m / 100 % 10 * 256 + m / 10 % 10 * 16 + m % 10

/-- The display digits of a refuge's channel: dashes while it is not healthy or its window is empty (R69). -/
def State.digits (s : State) (i : Option Nat) : Nat :=
  match i.bind s.channel? with
  | some c =>
    match c.mean with
    | some m => if s.healthy c then bcd m else 0xFFFF
    | none => 0xFFFF
  | none => 0xFFFF

/-- The point position of a refuge's channel: that of the channel's kind (R69, Table 3-1); where no channel in use stands there,
that of the place's own kind. DESIGN CHOICE, log entry 50. -/
def State.point (s : State) (i : Option Nat) (place : ChannelKind) : Nat :=
  (((i.bind s.channel?).map (·.kind)).getD place).point

/-- The HOLD commands of a RELAY head's circuits (R83). -/
def State.holds (s : State) (a count : Nat) : List Bool :=
  (List.range count).map fun k =>
    s.zone.zones.any fun p => p.2.inUse && p.2.relays.contains (a, k) && p.2.closed

/-- The payload of a POLL, taken from the owning blocks, and the state after taking it (R26). DESIGN CHOICE, log
entry 26. -/
def State.pollPayload (s : State) (a : Nat) (continuing : Bool) : Payload × State :=
  let h := s.head a
  let w := s.effectiveWindow h
  match h.kind with
  | .gas =>
    let (step, s1) := s.stepCommand a
    (.gas w step, s1)
  | .reader =>
    if continuing then (.reader w [], s)
    else
      match s.listPosition a with
      | none => (.reader w [], s)
      | some pos =>
        let s1 := s.refill pos
        (.reader w (((lookupAt s1.people.lists pos).map (·.entries.take carriedMax)).getD []), s1)
  | .relay => (.relay w (s.holds a h.count), s)
  | .refuge =>
    let r := (s.route.refuges.find? fun p => decide (p.2.panel = a)).map Prod.snd
    let (o2, co) := (r.map (·.o2), r.map (·.co))
    (.refuge w (s.digits o2) (s.point o2 .o2) (s.digits co) (s.point co .co), s)
  | .sounder =>
    let (on, off, duty, reps) := s.sounderBytes a
    (.sounder w on off duty reps, s)

/-- The end of the first try to an address (R35). -/
def State.firstSide (s : State) (a : Nat) : LoopEnd :=
  match s.loop.state with
  | .whole => .a
  | .broken => if (s.head a).configured then (s.head a).preferred else .a

def LoopEnd.other : LoopEnd → LoopEnd
  | .a => .b
  | .b => .a

/-- Sends a frame on an end: the first try of an exchange, with whether its head is ONLINE now (R24, R40). DESIGN CHOICE, log
entry 7. -/
def State.sendFrame (s : State) (f : Frame) (p : Purpose) (side : LoopEnd) : State :=
  { s with
    loop.exchange := some
      { frame := f, purpose := p, online := s.headOnline f.address, side := side, retry := false, begun := false, garbled := false, heard := false,
        abandoned := false, sentAt := s.now } }

/-- Forms and sends a new POLL: the toggle is inverted afterwards (R27). -/
def State.sendPoll (s : State) (a : Nat) (p : Purpose) : State :=
  let continuing := match p with
    | .continuation _ => true
    | _ => false
  let (payload, s1) := s.pollPayload a continuing
  let inner := s1.headInner a
  let s2 := s1.putInner a { inner with toggle := !inner.toggle, lastWindow := s.effectiveWindow (s.head a) }
  s2.sendFrame { kind := .poll, address := a, toggle := inner.toggle, payload := payload } p (s2.firstSide a)

/-- Sends an IDENTIFY to an address (R25). -/
def State.sendIdentify (s : State) (a : Nat) (p : Purpose) : State :=
  s.sendFrame { kind := .identify, address := a, toggle := false, payload := .empty } p (s.firstSide a)

/-- Sends the round's MARKER out of end A (R34). -/
def State.sendMarker (s : State) : State :=
  let s1 : State := { s with loop.round := s.loop.round.map fun r => { r with markerOwed := false } }
  s1.sendFrame { kind := .marker, address := 0, toggle := false, payload := .empty } .marker .a

/-- The exchange ends; a MARKER that waits for the loop is then sent (R24, R30). -/
def State.freeLoop (s : State) : State :=
  let s1 : State := { s with loop.exchange := none }
  if s1.active && (s1.loop.round.map (·.markerOwed)).getD false then s1.sendMarker else s1

/-! ### The poll plan and the start of a round (R30 to R32) -/

/-- A kind is due under the plan (R31). -/
def Loop.isDue (l : Loop) (k : HeadKind) : Bool := decide (l.plan % headDivisor k l.rates = 0)

/-- Puts an address in its place by loop position. -/
def insertByPosition (pos : Nat → Nat) (a : Nat) : List Nat → List Nat
  | [] => [a]
  | b :: bs => if pos a < pos b then a :: b :: bs else b :: insertByPosition pos a bs

/-- The round's list: the configured heads due, in ascending loop position (R30, R31); a sounder that came back is polled in its next
due round, DESIGN CHOICE, log entry 71. -/
def State.roundList (s : State) (all : Bool) : List Nat :=
  ((s.loop.heads.filter fun p => p.2.configured && (all || s.loop.isDue p.2.kind)).map Prod.fst).foldl
    (fun l a => insertByPosition (fun x => (s.head x).position) a l) []

/-- The comparison of the supply mode with the plan at the start of a round, and whether the round is a transition round
(R32). -/
def State.comparePlan (s : State) : State × Bool :=
  let m := s.supply.mode
  let r := s.loop.rates
  if m.ctorIdx < r.ctorIdx then ({ s with loop.rates := m, loop.windows := m, loop.plan := 0 }, false)
  else if m = r then ({ s with loop.windows := m }, false)
  else if s.loop.lastWindows = some m then ({ s with loop.rates := m, loop.plan := 1 }, false)
  else ({ s with loop.windows := m }, true)

/-- Every row's roll-call finding is set to NONE (R44). -/
def State.clearFindings (s : State) : State :=
  forEach (keysOf s.loop.heads) (fun a s => s.putHead a { s.head a with finding := .none }) s

/-- A roll call or assignment begins with the round, or goes on in it (R44, R47). -/
def State.beginLoopWork (s : State) : State :=
  let s1 := match s.loop.rollCall with
    | some rc => if rc.begun then s else { s.clearFindings with loop.rollCall := some { rc with begun := true } }
    | none => s
  match s1.loop.assignment with
  | some x => { s1 with loop.assignment := some { x with begun := true, rounds := x.rounds + 1 } }
  | none => s1

/-- A round begins (R30): the plan, the round's list, the roll-call and assignment parts, and the MARKER, sent at once if the
loop is free. -/
def State.beginRound (s : State) : State :=
  let (s1, transition) := s.comparePlan
  let s2 := s1.beginLoopWork
  let assigning := s2.loop.assignment.isSome
  let r : Round :=
    { due := s2.roundList transition
      windows := s2.loop.windows
      overrun := false
      markerOwed := true
      reachedA := 0
      reachedB := 64
      missed := []
      rollLeft := if s2.loop.rollCall.isSome then rollCallPerRound else 0
      assignEnds := if assigning then [.a, .b] else []
      assignCheck := assigning }
  let s3 : State := { s2 with loop.round := some r, loop.roundOwed := false }
  if s3.loop.exchange.isNone then s3.sendMarker else s3

/-- An expiry of the round timer, when it is due: a round begins, or the running round is an overrun round (R29).
DESIGN CHOICE, log entry 13. -/
def State.roundExpiry (s : State) : State :=
  if s.due s.loop.roundAt s.supply.policy.pollPeriod then
    let s1 : State := { s with loop.roundAt := s.loop.roundAt + BitVec.ofNat 48 s.supply.policy.pollPeriod }
    match s1.loop.round with
    | none => s1.beginRound
    | some r =>
      let s2 : State := { s1 with loop.roundOwed := true }
      if r.overrun then s2
      else
        let s3 : State :=
          { s2 with
            loop.round := some { r with overrun := true }
            loop.overruns := min 65535 (s2.loop.overruns + 1)
            loop.overrunRun := true }
        s3.bumpStatistics.appendIf (!s2.loop.overrunRun) 0x15 clsDistrict 0 (s2.loop.rounds.toNat % 65536)
          s2.supply.policy.pollPeriod
  else s

/-! ### What the loop does next (R30, R33, R44, R47) -/

/-- The Loop Controller's next work while the loop is free. -/
inductive LoopWork where
  | poll (address : Nat) (p : Purpose)
  | identify (address : Nat) (p : Purpose)
  | assign (side : LoopEnd)
  | roundEnd
  | none
  deriving DecidableEq, Repr

/-- The heads of the round's list from the first whose turn it is: those UNCONFIGURED or CLASH are passed over (R30). -/
def State.dueFrom (s : State) : List Nat → List Nat
  | [] => []
  | a :: as =>
    let h := s.head a
    if !h.configured || decide (h.link = .clash) || decide (h.link = .unconfigured) then s.dueFrom as else a :: as

/-- The marked ONLINE head of lowest loop position (R33). DEDUCED, log entry 36. -/
def State.nextMark (s : State) : Option Nat :=
  ((s.loop.marks.filter s.headOnline).foldl
    (fun l a => insertByPosition (fun x => (s.head x).position) a l) []).head?

/-- The assignment that has begun: one taken during a round waits for the next (R47). -/
def State.assigning (s : State) : Option Assignment := s.loop.assignment.filter (·.begun)

/-- The ends an ASSIGN still goes out on: A, and B while the loop is BROKEN (R47). -/
def State.assignLeft (s : State) (r : Round) : List LoopEnd :=
  if s.assigning.isSome then
    match s.loop.state with
    | .whole => r.assignEnds.filter fun e => decide (e = .a)
    | .broken => r.assignEnds
  else []

/-- The next work of the running round (R30, parts 2, 4 and 5). -/
def State.roundWork (s : State) (r : Round) : LoopWork :=
  match s.dueFrom r.due with
  | a :: _ => if s.headOnline a then .poll a .due else .identify a .due
  | [] =>
    let roll := match s.loop.rollCall with
      | some rc => if rc.begun ∧ 0 < r.rollLeft then some rc.address else Option.none
      | Option.none => Option.none
    match roll with
    | some a => .identify a .rollCall
    | Option.none =>
      match s.assignLeft r with
      | e :: _ => .assign e
      | [] =>
        match s.assigning with
        | some x => if r.assignCheck then .identify x.target .assignCheck else .roundEnd
        | Option.none => .roundEnd

/-- The Loop Controller's next work: a continuation poll, then marked sounders, then the running round. -/
def State.nextWork (s : State) : LoopWork :=
  if s.loop.exchange.isSome then .none
  else
    match s.loop.continuation with
    | some (a, n) => .poll a (.continuation n)
    | Option.none =>
      match s.nextMark with
      | some a => .poll a .interposed
      | Option.none =>
        match s.loop.round with
        | some r => s.roundWork r
        | Option.none => .none

/-- The head taken for its due poll leaves the round's list. -/
def State.takeDue (s : State) : State :=
  { s with loop.round := s.loop.round.map fun r => { r with due := (s.dueFrom r.due).drop 1 } }

end Sys2Proof.Machine
end

