-- ==== Sys2Proof/Machine/LoopEvents.lean ====
section
/-! DEFINITION. The Loop Controller's exchanges, roll call and address assignment, and the end of a round (R24 to R47), with the
handing on of replies (R40, R54, R84, R105, R143, R154). -/

namespace Sys2Proof.Machine

open Sys2Proof.Config

/-! ### Roll call (R44 to R46) -/

/-- What the two tries at an address say of it (R45). -/
inductive Classified where
  | identified (kind : HeadKind) (serial : Nat)
  | clash (serials : List Nat)
  | absent
  deriving DecidableEq, Repr

def classify : TryResult → TryResult → Classified
  | .good k n, .good k' n' => if k = k' ∧ n = n' then .identified k n else .clash [n, n']
  | .good k n, _ => .identified k n
  | _, .good k n => .identified k n
  | .garbled, .garbled => .clash []
  | .silent, _ => .absent
  | _, .silent => .absent

/-- An address is classified identified (R45). -/
def State.identifiedAs (s : State) (a : Nat) (kind : HeadKind) (serial : Nat) : State :=
  let h := s.head a
  let s1 := s.putInner a { s.headInner a with clashSerials := [] }
  if h.configured then
    let ok := decide (h.kind = kind) && decide (h.serial = some serial)
    s1.relink a
      { h with
        link := if ok then .online else .mismatch
        finding := if ok then .none else .mismatch
        identified := some serial
        missed := 0 }
  else s1.relink a { h with link := .unconfigured, finding := .found, identified := some serial, missed := 0 }

/-- An address takes its classification (R45). -/
def State.takeClass (s : State) (a : Nat) : Classified → State
  | .identified k n => s.identifiedAs a k n
  | .clash ns =>
    (s.putInner a { s.headInner a with clashSerials := ns }).relink a
      { s.head a with link := .clash, finding := .clash }
  | .absent =>
    let h := s.head a
    (s.putInner a { s.headInner a with clashSerials := [] }).relink a
      { h with link := if h.configured then .offline else .unconfigured, finding := .none }

/-- Rows with a finding. -/
def State.countFindings (s : State) (f : Finding) : Nat :=
  (s.loop.heads.filter fun p => decide (p.2.finding = f)).length

/-- The roll call ends: ROLL_CALL_DONE with the counts, and the end of a ROLL CALL order (R46). -/
def State.endRollCall (s : State) (rc : RollCall) (r : OrderResult) : State :=
  let f := if rc.begun then s.countFindings .found else 0
  let c := if rc.begun then s.countFindings .clash else 0
  let m := if rc.begun then s.countFindings .mismatch else 0
  let s1 := ({ s with loop.rollCall := none } : State).append 0x18 clsDistrict 0 f (c * 256 + m)
  if rc.automatic then s1
  else s1.endOrder codeRollCall .loop 0 r 0 [BitVec.ofNat 8 f, BitVec.ofNat 8 c, BitVec.ofNat 8 m]

/-- One try of the roll call has ended (R44, R45). -/
def State.rollTry (s : State) (a : Nat) (t : TryResult) : State :=
  match s.loop.rollCall with
  | none => s
  | some rc =>
    if rc.begun ∧ rc.address = a then
      match rc.tries with
      | [] => { s with loop.rollCall := some { rc with tries := [t] } }
      | t0 :: _ =>
        let s1 := s.takeClass a (classify t0 t)
        let s2 : State :=
          { s1 with
            loop.rollCall := some { rc with address := a + 1, tries := [] }
            loop.round := s1.loop.round.map fun r => { r with rollLeft := r.rollLeft - 1 } }
        if 63 ≤ a then s2.endRollCall rc .ok else s2
    else s

/-! ### Address assignment (R47) -/

/-- The effects of an assignment that ends OK on the other rows (R47), in ascending address. DESIGN CHOICE, log entry 64. -/
def State.dropSerial (s : State) (target serial : Nat) : State :=
  forEach (removeNat (keysOf s.loop.heads) target)
    (fun a s =>
      let h := s.head a
      let clash := decide (h.link = .clash)
      let named := decide (h.identified = some serial)
      let inClash := clash && (s.headInner a).clashSerials.contains serial
      let h1 := if named then { h with identified := none } else h
      let h2 :=
        if inClash then
          (if h.configured then { h1 with link := .unknown }
           else { h1 with link := .unconfigured, finding := if named then .none else h1.finding })
        else if named && !clash then
          (if h.configured then { h1 with link := .unknown } else { h1 with finding := .none })
        else h1
      let s1 := if inClash then s.putInner a { s.headInner a with clashSerials := [] } else s
      if h2 = h then s1 else s1.relink a h2) s

/-- The named serial was not brought: the third round ends the order TIMEOUT (R47). -/
def State.assignMissed (s : State) (x : Assignment) : State :=
  if assignRounds ≤ x.rounds then
    ({ s with loop.assignment := none } : State).endOrder codeAssign .loop 0 .timeout 0 []
  else s

/-- The assignment's IDENTIFY has ended, with the kind and serial it brought (R47). -/
def State.assignChecked (s : State) (x : Assignment) (brought : Option (HeadKind × Nat)) : State :=
  match brought with
  | some (k, n) =>
    if n = x.serial then
      let s1 := ({ s with loop.assignment := none } : State).identifiedAs x.target k n
      (s1.dropSerial x.target n).endOrder codeAssign .loop 0 .ok 0 [BitVec.ofNat 8 x.rounds]
    else s.assignMissed x
  | none => s.assignMissed x

/-! ### The end of an exchange -/

/-- An abandoned exchange ends: it records no outcome and hands nothing on (R40, R43). An assignment's IDENTIFY has then not brought
the named serial (R47); a roll call examines the address by a new IDENTIFY in its place. DESIGN CHOICE, log entry 32. -/
def State.endAbandoned (s : State) (ex : Exchange) : State :=
  let s1 := match ex.purpose, s.assigning with
    | .assignCheck, some x => s.assignMissed x
    | _, _ => s
  s1.freeLoop

/-- An exchange without a valid reply ends (R35, R122). -/
def State.exchangeFails (s : State) (ex : Exchange) (garbled : Bool) : State :=
  let a := ex.frame.address
  let e : PollEnd :=
    { outcome := if garbled then .bad else .missed, reply := none, side := ex.side, frame := ex.frame.kind }
  match ex.purpose with
  | .marker | .assignFrame => s
  | .due | .continuation _ | .interposed =>
    let s1 := if ex.frame.kind = .poll ∧ (s.head a).kind = .reader then s.clearSent a else s
    let s2 := s1.pollDone a ex.purpose e
    if ex.purpose = .interposed then { s2 with loop.marks := removeNat s2.loop.marks a } else s2
  | .rollCall => s.rollTry a (if garbled then .garbled else .silent)
  | .assignCheck =>
    let s1 := if (s.head a).configured then s.pollDone a .assignCheck e else s
    match s1.assigning with
    | some x => s1.assignChecked x none
    | none => s1

/-- A try ends without a valid reply: the retry goes out on the other end, or the exchange ends (R35). -/
def State.tryFails (s : State) (ex : Exchange) (garbled : Bool) : State :=
  let g := ex.garbled || garbled
  if ex.abandoned then s.endAbandoned ex
  else if ex.retry then (s.exchangeFails ex g).freeLoop
  else
    { s with
      loop.exchange := some
        { ex with side := ex.side.other, retry := true, begun := false, garbled := g, sentAt := s.now } }

/-- The response window ends (R24): with no reply begun the try is silent, a frame that expects no reply ends, and the MARKER
is judged. -/
def State.windowExpiry (s : State) : State :=
  match s.loop.exchange with
  | none => s
  | some ex =>
    if s.due ex.sentAt responseWindow then
      match ex.frame.kind with
      | .marker => (if ex.heard then s else s.judgeLoop false).freeLoop
      | .assign => s.freeLoop
      | .poll | .identify => if ex.begun then s else s.tryFails ex false
    else s

/-- A garbled reply ends the try (R24). -/
def State.garbledReply (s : State) : State :=
  match s.loop.exchange with
  | none => s
  | some ex =>
    match ex.frame.kind with
    | .poll | .identify => s.tryFails ex true
    | .assign | .marker => s

/-- A reply begins within the response window (R24). -/
def State.replyBegins (s : State) : State :=
  match s.loop.exchange with
  | none => s
  | some ex =>
    match ex.frame.kind with
    | .poll | .identify =>
      if elapsed s.now ex.sentAt ≤ responseWindow then { s with loop.exchange := some { ex with begun := true } } else s
    | .assign | .marker => s

/-- The part's own MARKER arrives at end B (R34). DESIGN CHOICE, log entry 10. -/
def State.markerArrives (s : State) (good : Bool) : State :=
  match s.loop.exchange with
  | none => s
  | some ex =>
    match ex.frame.kind with
    | .marker =>
      if good && !ex.heard then ({ s with loop.exchange := some { ex with heard := true } } : State).judgeLoop true else s
    | .poll | .identify | .assign => s

/-! ### Valid replies -/

/-- The outcome of an exchange with a valid reply (R35). -/
def Exchange.outcome (ex : Exchange) : PollOutcome := if ex.retry then .otherEnd else .good

/-- The next continuation poll that a reply carrying MORE calls for (R30). -/
def Purpose.continuationAfter (p : Purpose) : Option Nat :=
  match p with
  | .due => some 1
  | .continuation n => if n < continuationMax then some (n + 1) else none
  | .marker | .interposed | .rollCall | .assignFrame | .assignCheck => none

/-- The entries a POLL carried. -/
def Frame.entries (f : Frame) : List DownEntry :=
  match f.payload with
  | .reader _ es => es
  | _ => []

/-- The delivery counting of a valid reply to a POLL that carried entries, before the reply's sightings (R122). -/
def State.countCarried (s : State) (f : Frame) : State :=
  if f.entries.isEmpty then s else (s.countDeliveries f.address).finish

/-- What follows the handing on of a valid reply: the polls without an echo (R134), the mark of an interposed poll (R33), the
continuation that a reader's MORE calls for (R30), and the loop free again. -/
def State.pollFollows (s : State) (ex : Exchange) (h : ReplyHead) (kind : HeadKind) : State :=
  let a := ex.frame.address
  let s1 := s.countUnacked ex.frame.entries
  let s2 : State := if ex.purpose = .interposed then { s1 with loop.marks := removeNat s1.loop.marks a } else s1
  let more := match kind with
    | .reader => h.more && s2.headOnline a
    | .gas | .relay | .refuge | .sounder => false
  let s3 : State :=
    if more then { s2 with loop.continuation := ex.purpose.continuationAfter.map fun n => (a, n) } else s2
  s3.freeLoop

/-- A valid reply to a POLL is accepted: the head record, the delivery counting, the handing on of a matching reply to a POLL sent
to an ONLINE head, and what follows (R30, R35, R39, R40, R122). Where an end report among the hand-offs leads to HALTED, the
rest does not happen (R29). DESIGN CHOICE, log entry 34. -/
def State.acceptPoll (s : State) (ex : Exchange) (h : ReplyHead) (kind : HeadKind) (hand : State → State) : State :=
  let a := ex.frame.address
  if ex.abandoned then s.endAbandoned ex
  else
    let matching := decide ((s.head a).kind = kind)
    let s0 : State := { s with loop.continuation := none }
    let s1 := s0.pollDone a ex.purpose
      { outcome := ex.outcome, reply := some (h, matching, none), side := ex.side, frame := .poll }
    let s2 := s1.countCarried ex.frame
    let s3 := if matching && ex.online && s2.active then hand s2 else s2
    if s3.active then s3.pollFollows ex h kind else s3

/-- A reply to a POLL arrives: valid when address, toggle and length are right, garbled otherwise; no exchange, no effect
(R24). -/
def State.pollReply (s : State) (h : ReplyHead) (kind : HeadKind) (fits : Bool) (hand : Frame → State → State) : State :=
  match s.loop.exchange with
  | none => s
  | some ex =>
    match ex.frame.kind with
    | .marker | .assign => s
    | .identify => s.tryFails ex true
    | .poll =>
      if h.address = ex.frame.address ∧ h.toggle = ex.frame.toggle ∧ fits then
        s.acceptPoll ex h kind (hand ex.frame)
      else s.tryFails ex true

/-- The head of the exchange in progress is configured with a kind. -/
def State.polledKind (s : State) (kind : HeadKind) : Bool :=
  match s.loop.exchange with
  | some ex => decide ((s.head ex.frame.address).kind = kind)
  | none => false

/-- The length of a reply whose contents follow the configured count is right (R24, Table 2-2). For a reply of another kind than
the configured one any count is right. DESIGN CHOICE, log entry 45. -/
def State.countFits (s : State) (kind : HeadKind) (n : Nat) : Bool :=
  match s.loop.exchange with
  | some ex => !decide ((s.head ex.frame.address).kind = kind) || decide ((s.head ex.frame.address).count = n)
  | none => false

/-- One reading of a reply goes to the channel at a head's slot (R54). -/
def State.readSlot (s : State) (a slot : Nat) (status : Bool) (r : RawReading) : State :=
  match s.channelAt a slot with
  | some i => if s.active then (s.reading i { r with warmup := r.warmup || status }).finish else s
  | none => s

/-- The readings of a GAS reply, in slot order (R54). -/
def State.readSlots (a : Nat) (status : Bool) : List RawReading → Nat → State → State
  | [], _, s => s
  | r :: rs, k, s => State.readSlots a status rs (k + 1) (s.readSlot a k status r)

/-- A GAS reply is handed on: readings to the Air Evaluator, then the self-check report to the Test Unit (R40). -/
def State.handGas (s : State) (r : GasReply) (f : Frame) : State :=
  let carried := match f.payload with
    | .gas _ step => step
    | _ => 0
  let s1 := State.readSlots f.address r.head.warmup r.slots 0 s
  if s1.active then s1.checkReport f.address carried r.step r.verdict r.value else s1

/-- A READER reply is handed on: miner sightings, then vehicle sightings (R105, R127). -/
def State.handReader (s : State) (r : ReaderReply) (f : Frame) : State :=
  (s.minerSightings f.address r.sightings).vehicleSightings f.address r.sightings

/-- A circuit's feedback record, without mismatch or fault when none is held (R84). -/
def State.circuit (s : State) (a k : Nat) : Circuit :=
  (s.zone.circuits.find? fun c => decide (c.head = a) && decide (c.circuit = k)).getD
    { head := a, circuit := k, count := 0, openSort := false, fault := .none }

/-- Replaces a circuit's feedback record. -/
def State.putCircuit (s : State) (c : Circuit) : State :=
  { s with
    zone.circuits :=
      (s.zone.circuits.filter fun x => !(decide (x.head = c.head) && decide (x.circuit = c.circuit))) ++ [c] }

/-- The feedback record after a reply: HOLD commanded and CLOSED fed back (R84). -/
def Circuit.judge (c : Circuit) (hold closed : Bool) : Circuit :=
  if hold = closed then { c with count := 0, fault := .none }
  else
    let n := if 1 ≤ c.count ∧ c.openSort = hold then min 2 (c.count + 1) else 1
    { c with
      count := n
      openSort := hold
      fault := if n = 2 then (if hold then .openFault else .welded) else c.fault }

/-- The zone in use that names a circuit. -/
def State.circuitZone (s : State) (a k : Nat) : Option Nat :=
  (s.zone.zones.find? fun p => p.2.inUse && p.2.relays.contains (a, k)).map Prod.fst

/-- The feedback of one circuit is judged; a change of fault is logged and causes an evaluation of the zone (R84, R90). -/
def State.feedback (s : State) (a k : Nat) (hold closed : Bool) : State :=
  match (if s.active then s.circuitZone a k else none) with
  | none => s
  | some z =>
    let c := s.circuit a k
    let c' := c.judge hold closed
    let s1 := s.putCircuit c'
    if c'.fault = c.fault then s1
    else
      let kind := match c'.fault with
        | .openFault => 0x38
        | .welded => 0x39
        | .none => 0x3A
      ((s1.append kind clsZone z a k).evalZone z).finish

/-- The feedback of a RELAY reply, circuit by circuit, against the commands carried (R84). -/
def State.feedbacks (a : Nat) : List Bool → List Bool → Nat → State → State
  | h :: hs, c :: cs, k, s => State.feedbacks a hs cs (k + 1) (s.feedback a k h c)
  | _, _, _, s => s

/-- A RELAY reply is handed on to the Zone Unit. -/
def State.handRelay (s : State) (r : RelayReply) (f : Frame) : State :=
  match f.payload with
  | .relay _ holds => State.feedbacks f.address holds r.closed 0 s
  | _ => s

/-- The door occupancy from the panel's counts (R143). -/
def doorOccupancy (inCount outCount capacity : Nat) : Nat :=
  let e := (inCount + 65536 - outCount % 65536) % 65536
  if 32768 ≤ e then 0 else min e capacity

/-- A REFUGE reply is handed on: the panel's fields to the Route Unit, then the O2 and CO readings (R54, R143). -/
def State.handRefuge (s : State) (r : RefugeReply) (f : Frame) : State :=
  let a := f.address
  let s1 := match s.route.refuges.find? fun p => decide (p.2.panel = a) with
    | none => s
    | some (i, x) =>
      let pulled := !decide (r.pull = 0)
      let x' : Refuge :=
        { x with
          door := match r.door with
            | 0 => .closed
            | 1 => .open
            | _ => .fault
          inCount := r.inCount
          outCount := r.outCount
          doorOcc := doorOccupancy r.inCount r.outCount x.capacity
          battery := match r.battery with
            | 0 => .ok
            | 1 => .low
            | _ => .fault
          pulled := pulled }
      s.changeRefuge i x' (pulled && !x.pulled)
  (s1.finish.readSlot a 0 r.head.warmup r.o2).readSlot a 1 r.head.warmup r.co

/-- A SOUNDER reply is handed on to the Evacuation Unit: a change to PULLED is a PULL trigger (R154). -/
def State.handSounder (s : State) (r : SounderReply) (f : Frame) : State :=
  let a := f.address
  let was := s.evac.pulled.contains a
  let s1 : State :=
    { s with evac.pulled := if r.pulled then insertNat s.evac.pulled a else removeNat s.evac.pulled a }
  if r.pulled && !was then s1.handEvac (.pull clsHead a) else s1

/-- A reply to an IDENTIFY arrives (R24, R39, R45, R47). In a roll call the classification, not the single try, gives the address its
identified serial (R45). Neither the status flags nor the time of a reply from an unconfigured address reach its record. DEDUCED,
log entry 23. DEDUCED, log entry 31. -/
def State.identifyReply (s : State) (r : IdentifyReply) : State :=
  match s.loop.exchange with
  | none => s
  | some ex =>
    match ex.frame.kind with
    | .marker | .assign => s
    | .poll => s.tryFails ex true
    | .identify =>
      let a := ex.frame.address
      if !decide (r.head.address = a) then s.tryFails ex true
      else if ex.abandoned then s.endAbandoned ex
      else
        let h := s.head a
        let matching := decide (h.kind = r.kind) && decide (h.serial = some r.serial)
        let serial := if ex.purpose = .rollCall then none else some r.serial
        let e : PollEnd :=
          { outcome := ex.outcome, reply := some (r.head, matching, serial), side := ex.side, frame := .identify }
        let s1 := if h.configured then s.pollDone a ex.purpose e else s
        let s2 := match ex.purpose with
          | .rollCall => s1.rollTry a (.good r.kind r.serial)
          | .assignCheck =>
            match s1.assigning with
            | some x => s1.assignChecked x (some (r.kind, r.serial))
            | none => s1
          | .marker | .due | .continuation _ | .interposed | .assignFrame => s1
        s2.freeLoop

/-! ### The end of a round (R30, R36, R39) -/

/-- The break span of the round (R36). -/
def State.takeSpan (s : State) (r : Round) : State :=
  match s.loop.state with
  | .whole => s
  | .broken =>
    if s.loop.span = some (r.reachedA, r.reachedB) then s
    else
      ({ s with loop.span := some (r.reachedA, r.reachedB) } : State).bumpSummary.raise .loopBreak

/-- The break-span rule of R39: every configured head inside the span whose due poll was a missed round becomes OFFLINE, in the order
of those polls (DESIGN CHOICE, log entry 64). A head retired and set anew in the round keeps the miss of its address (DESIGN CHOICE, log
entry 62). Whether a head lies inside is judged by its loop position at the round's end. DESIGN CHOICE, log entry 73. -/
def State.breakHeads (s : State) (r : Round) : State :=
  match s.loop.state, s.loop.span with
  | .broken, some (first, last) =>
    forEach r.missed
      (fun a s =>
        let h := s.head a
        if h.configured ∧ first < h.position ∧ h.position < last ∧ h.link ≠ .offline ∧ h.link ≠ .clash then
          s.relink a { h with link := .offline }
        else s) s
  | _, _ => s

/-- ROUND_END (R30, part 5): the span, the break-span rule, the counts, the zone evaluations and the evacuation machine, and the
next round where one waits. The round runs until its end has been reported, so an entry to ALERTING that these evaluations bring sees
it running (R157). DEDUCED, log entry 68. -/
def State.endRound (s : State) : State :=
  match s.loop.round with
  | none => s
  | some r =>
    let s1 := (s.takeSpan r).breakHeads r
    let s2 : State :=
      { s1 with
        loop.rounds := s1.loop.rounds + 1
        loop.overrunRun := s1.loop.overrunRun && r.overrun
        loop.plan := min 65535 (s1.loop.plan + 1)
        loop.lastWindows := some r.windows }
    let s3 := (State.finishIn handOffFuel s2.bumpStatistics.evalAllZones).evacRoundEnd
    let s4 : State := { s3 with loop.round := none }
    if s4.loop.roundOwed then s4.beginRound else s4

/-! ### The commands -/

/-- ROUND_TIMER_EXPIRY (R29). -/
def execRoundTimerExpiry (s : State) : Host.Outcome State Fault Refusal := .next (s.event State.roundExpiry)

/-- POLL_SEND (R26): when the loop is free and its next work is a POLL. -/
def execPollSend (s : State) : Host.Outcome State Fault Refusal :=
  .next (s.event fun s =>
    match s.nextWork with
    | .poll a .due => s.takeDue.sendPoll a .due
    | .poll a p => ({ s with loop.continuation := none } : State).sendPoll a p
    | .identify _ _ | .assign _ | .roundEnd | .none => s)

/-- The polls of the round's list are over: the heads passed over at its end have had their turn (R30, parts 2 and 4). -/
def State.endDue (s : State) : State := { s with loop.round := s.loop.round.map fun r => { r with due := [] } }

/-- IDENTIFY_SEND (R30, R44, R47): when the loop is free and its next work is an IDENTIFY. -/
def execIdentifySend (s : State) : Host.Outcome State Fault Refusal :=
  .next (s.event fun s =>
    match s.nextWork with
    | .identify a .due => s.takeDue.sendIdentify a .due
    | .identify a .assignCheck =>
      ({ s with loop.round := s.loop.round.map fun r => { r with due := [], assignCheck := false } } : State).sendIdentify a
        .assignCheck
    | .identify a p => s.endDue.sendIdentify a p
    | .poll _ _ | .assign _ | .roundEnd | .none => s)

/-- ASSIGN_SEND (R47): when the loop is free and its next work is an ASSIGN. -/
def execAssignSend (s : State) : Host.Outcome State Fault Refusal :=
  .next (s.event fun s =>
    match s.nextWork, s.loop.assignment with
    | .assign e, some x =>
      ({ s with
          loop.round := s.loop.round.map fun r => { r with due := [], assignEnds := r.assignEnds.drop 1 } } : State).sendFrame
        { kind := .assign, address := 0, toggle := false, payload := .assign x.serial x.target } .assignFrame e
    | _, _ => s)

/-- RESPONSE_WINDOW_EXPIRY (R24). -/
def execResponseWindowExpiry (s : State) : Host.Outcome State Fault Refusal := .next (s.event State.windowExpiry)

/-- GARBLED_REPLY (R24). -/
def execGarbledReply (s : State) : Host.Outcome State Fault Refusal := .next (s.event State.garbledReply)

/-- GAS_REPLY (R54). -/
def execGasReply (r : GasReply) (s : State) : Host.Outcome State Fault Refusal :=
  .next (s.event fun s => s.pollReply r.head .gas (s.countFits .gas r.slots.length) fun f s => s.handGas r f)

/-- READER_REPLY (R105). -/
def execReaderReply (r : ReaderReply) (s : State) : Host.Outcome State Fault Refusal :=
  .next (s.event fun s => s.pollReply r.head .reader (sightingsFit r.sightings) fun f s => s.handReader r f)

/-- RELAY_REPLY (R84). -/
def execRelayReply (r : RelayReply) (s : State) : Host.Outcome State Fault Refusal :=
  .next (s.event fun s => s.pollReply r.head .relay (s.countFits .relay r.closed.length) fun f s => s.handRelay r f)

/-- REFUGE_REPLY (R143). -/
def execRefugeReply (r : RefugeReply) (s : State) : Host.Outcome State Fault Refusal :=
  .next (s.event fun s => s.pollReply r.head .refuge true fun f s => s.handRefuge r f)

/-- SOUNDER_REPLY (R169). -/
def execSounderReply (r : SounderReply) (s : State) : Host.Outcome State Fault Refusal :=
  .next (s.event fun s => s.pollReply r.head .sounder true fun f s => s.handSounder r f)

/-- IDENTIFY_REPLY (R39). -/
def execIdentifyReply (r : IdentifyReply) (s : State) : Host.Outcome State Fault Refusal :=
  .next (s.event fun s => s.identifyReply r)

/-- ROUND_END (R30): when the loop is free and the round's last exchange has ended. -/
def execRoundEnd (s : State) : Host.Outcome State Fault Refusal :=
  .next (s.event fun s =>
    match s.nextWork with
    | .roundEnd => s.endRound
    | .poll _ _ | .identify _ _ | .assign _ | .none => s)

/-- REPLY_BEGUN (R24). -/
def execReplyBegun (s : State) : Host.Outcome State Fault Refusal := .next (s.event State.replyBegins)

/-- MARKER_ARRIVAL (R34). -/
def execMarkerArrival (good : Bool) (s : State) : Host.Outcome State Fault Refusal :=
  .next (s.event fun s => s.markerArrives good)

end Sys2Proof.Machine
end

