-- ==== Sys2Proof/Machine/Timers.lean ====
section
/-! DEFINITION. The expiries of the units' timers (R80, R96, R97, R102, R112, R117, R128, R155, R158). Each has its effect only
when its timer runs and is due. -/

namespace Sys2Proof.Machine

open Sys2Proof.Config

/-- BLIND_GRACE_EXPIRY (R80): the zone is evaluated; still in BLIND_GRACE without a healthy channel it trips BLIND. -/
def State.graceExpiry (s : State) (z : Nat) : State :=
  match lookupAt s.zone.grace z with
  | some g =>
    if s.due g.start g.length then s.evaluate z { start := s.zoneRec z, clear := false, expired := true } else s
  | none => s

/-- BUMP_WINDOW_EXPIRY (Table 5-1): NOT_STARTED or NOT_ENDED. -/
def State.bumpExpiry (s : State) (i : Nat) : State :=
  match lookupAt s.tests.bumps i with
  | some b =>
    if s.due b.start b.length then
      match b.timeAtA with
      | none => s.endBump i b .timeout 1 noRise absent8 .recovery id
      | some t =>
        s.endBump i b .timeout 2 (leBytes 2 (tenths (b.start + BitVec.ofNat 48 b.length) t)) absent8 .recovery id
    else s
  | none => s

/-- STEP_TIMER_EXPIRY (R102, R103). -/
def State.stepExpiry (s : State) (a : Nat) : State :=
  match lookupAt s.tests.checks a with
  | some c =>
    match c.step, c.timer with
    | some k, some t => if s.due t stepTime then s.endCheck a .failed (k + 0x80) c.bytes else s
    | _, _ => s
  | none => s

/-- RECOVERY_EXPIRY (R97): the channel enters FAULT with cause SLOW_RECOVERY. -/
def State.recoveryEnds (s : State) (i : Nat) : State :=
  match lookupAt s.tests.recoveries i with
  | some t =>
    if s.due t recoveryTime then s.endRecovery i t 1 fun s => s.moveChannel i (·.faulted .slowRecovery) else s
  | none => s

/-- PAGE_TIMEOUT (Table 6-1). -/
def State.pageExpiry (s : State) (i : Nat) : State :=
  match lookupAt s.people.pages i with
  | some p => if s.due p.start p.length then s.endPage i .timeout else s
  | none => s

/-- ASK_WINDOW_EXPIRY (R155): ALERTING with the drill flag clear. -/
def State.askExpiry (s : State) : State :=
  match s.evac.askTimer with
  | some g => if s.evac.state = .asking ∧ s.due g.start g.length then s.enterAlerting false else s
  | none => s

/-- MUSTER_DEADLINE_EXPIRY (R158): the deadline-passed flag is set, and MUSTERING goes to OVERDUE. -/
def State.deadlineExpiry (s0 : State) : State :=
  match s0.evac.deadline with
  | some g =>
    if s0.due g.start g.length then
      let s1 : State := { s0 with evac.deadline := none, evac.deadlinePassed := true }
      if s1.evac.state = .mustering then
        State.logEvacState s0 ((s1.setEvac .overdue).raiseOnce .evacuation 0)
      else s1
    else s0
  | none => s0

/-- BLIND_GRACE_EXPIRY (R80). -/
def execBlindGraceExpiry (zone : Nat) (s : State) : Host.Outcome State Fault Refusal :=
  .next (s.event fun s => s.graceExpiry zone)

/-- BUMP_WINDOW_EXPIRY (R96). -/
def execBumpWindowExpiry (channel : Nat) (s : State) : Host.Outcome State Fault Refusal :=
  .next (s.event fun s => s.bumpExpiry channel)

/-- STEP_TIMER_EXPIRY (R103). -/
def execStepTimerExpiry (head : Nat) (s : State) : Host.Outcome State Fault Refusal :=
  .next (s.event fun s => s.stepExpiry head)

/-- RECOVERY_EXPIRY (R97). -/
def execRecoveryExpiry (channel : Nat) (s : State) : Host.Outcome State Fault Refusal :=
  .next (s.event fun s => s.recoveryEnds channel)

/-- PAGE_TIMEOUT (R117). -/
def execPageTimeout (entry : Nat) (s : State) : Host.Outcome State Fault Refusal :=
  .next (s.event fun s => s.pageExpiry entry)

/-- LOST_TIMER_EXPIRY (R112). -/
def execLostTimerExpiry (entry : Nat) (s : State) : Host.Outcome State Fault Refusal :=
  .next (s.event fun s => s.minerLost entry)

/-- VEHICLE_LOST_EXPIRY (R128). -/
def execVehicleLostExpiry (vehicle : Nat) (s : State) : Host.Outcome State Fault Refusal :=
  .next (s.event fun s => s.vehicleLost vehicle)

/-- ASK_WINDOW_EXPIRY (R155). -/
def execAskWindowExpiry (s : State) : Host.Outcome State Fault Refusal := .next (s.event State.askExpiry)

/-- MUSTER_DEADLINE_EXPIRY (R158). -/
def execMusterDeadlineExpiry (s : State) : Host.Outcome State Fault Refusal := .next (s.event State.deadlineExpiry)

end Sys2Proof.Machine
end

