-- ==== Sys2Proof/Machine/Supply.lean ====
section
/-! DEFINITION. The Supply and Clock Unit: inputs, supply modes, the entry to SETUP (Chapter 11). Its orders are in the order
files. -/

namespace Sys2Proof.Machine

open Sys2Proof.Config

/-! ### Inputs (R174) -/

/-- The input of a number 1..4. -/
def State.input (s : State) (n : Nat) : Input :=
  match n with
  | 1 => s.supply.in1
  | 2 => s.supply.in2
  | 3 => s.supply.in3
  | _ => s.supply.in4

def State.putInput (s : State) (n : Nat) (i : Input) : State :=
  match n with
  | 1 => { s with supply.in1 := i }
  | 2 => { s with supply.in2 := i }
  | 3 => { s with supply.in3 := i }
  | _ => { s with supply.in4 := i }

/-- A pin value is the input's active level. -/
def Input.atActive (i : Input) (level : Bool) : Bool := level ^^ i.activeLow

/-- The status an input's pin, latch and configuration give; a disabled input is inactive, but IN2 is active. -/
def Input.formed (i : Input) (n : Nat) : Bool :=
  if !i.enabled then decide (n = 2) else if i.edge then i.latch else i.atActive i.raw

/-- An input after a change of its pin: an edge into the active level sets the latch in EDGE mode. -/
def Input.pin (i : Input) (n : Nat) (level : Bool) : Input :=
  let rise := i.enabled && i.edge && i.atActive level && !i.atActive i.raw
  let i1 := { i with raw := level, latch := i.latch || rise }
  { i1 with status := i1.formed n }

/-! ### Supply modes (R175) -/

/-- The mode judged from the IN2 and IN3 statuses. -/
def SupplyMode.judge (m : SupplyMode) (in2 in3 : Bool) : SupplyMode :=
  if in2 then .mains
  else if in3 then .reserve
  else
    match m with
    | .reserve => .reserve
    | .mains | .battery => .battery

/-- The supply judgement; a change is shown, raised and logged. -/
def State.judgeSupply (s : State) : State :=
  let old := s.supply.mode
  let new := old.judge s.supply.in2.status s.supply.in3.status
  if old = new then s
  else
    ((({ s with supply.mode := new } : State).bumpSummary).raise .supply).append 0xA2 clsDistrict 0 old.ctorIdx new.ctorIdx

/-- A new status of an input is logged and handed on: IN2 and IN3 to the supply judgement, whose event comes first (R181), IN1
to the Evacuation Unit when active, IN4 to the Zone Unit. -/
def State.statusFollows (s : State) (n : Nat) : State :=
  let i := s.input n
  let s1 := if n = 2 ∨ n = 3 then s.judgeSupply else s
  let s2 := s1.append 0xA3 clsDistrict n i.status.toNat i.raw.toNat
  if n = 1 then (if i.status then s2.handEvac (.pull clsDistrict 0) else s2)
  else if n = 4 then s2.evalZone? s2.supply.in4Zone
  else s2

/-- A change of a pin in SETUP or RUNNING: raw value, latch and status, shown in the summary block (R174). -/
def State.pinEvent (s : State) (n : Nat) (level : Bool) : State :=
  let i := s.input n
  let i' := i.pin n level
  let s1 := (s.putInput n i').bumpSummary
  if i.status = i'.status then s1 else s1.statusFollows n

/-- A change of a pin: in BOOT and HALTED the raw value alone follows it (R174), and so it does where the change finds a check
bit of the state inside that leads to HALTED (R177). -/
def State.pinChange (s : State) (n : Nat) (level : Bool) : State :=
  let i := s.input n
  let follow := s.putInput n { i with raw := level }
  if i.raw = level then s
  else
    match s.supply.phase with
    | .setup | .running =>
      if s.insideBad then State.scrub s (follow.bumpSummary.halt .internalCheck) else s.event fun s => s.pinEvent n level
    | .boot => follow
    | .halted => State.scrub s (follow.bumpNow summaryBase)

/-- INPUT_PIN_CHANGE (R174): of one of the pins IN1..IN4. -/
def execInputPinChange (input : Nat) (level : Bool) (s : State) : Host.Outcome State Fault Refusal :=
  .next (if 1 ≤ input ∧ input ≤ 4 then s.pinChange input level else s)

/-! ### The entry to SETUP (R177) -/

/-- The statuses formed from the pins as they stand, and the supply mode from them, with no event (R174, R175). -/
def State.formInputs (s : State) : State :=
  let form (n : Nat) (i : Input) : Input := { i with status := i.formed n }
  let s1 : State :=
    { s with
      supply.in1 := form 1 s.supply.in1
      supply.in2 := form 2 s.supply.in2
      supply.in3 := form 3 s.supply.in3
      supply.in4 := form 4 s.supply.in4 }
  let m := SupplyMode.mains.judge s1.supply.in2.status s1.supply.in3.status
  { s1 with supply.mode := m, loop.rates := m, loop.windows := m, loop.plan := 0 }

/-- The end of BOOT: SETUP is entered, the inputs and supply mode are formed, RESET_DONE and PHASE_CHANGE are logged, the timers
start, and the first round begins with the automatic roll call. Every version count is 0 as SETUP is entered (R4).
DEDUCED, log entry 33. -/
def State.enterSetup (s : State) : State :=
  if s.supply.phase = .boot then
    let s1 := ({ s with supply.phase := .setup } : State).formInputs
    let s2 := s1.append 0xA0 clsDistrict 0 s1.supply.retained.cause.ctorIdx s1.supply.retained.warmCount
    let s3 := s2.append 0xA1 clsDistrict 0 Phase.boot.ctorIdx Phase.setup.ctorIdx
    let s4 : State :=
      { s3 with
        orders.scanAt := s3.now
        loop.roundAt := s3.now
        loop.rollCall := some { automatic := true, begun := false, address := 1, tries := [] }
        port.shownMine := s3.supply.mineClock
        port.shownRun := s3.supply.runTime
        port.refreshAt := s3.now }
    let s5 := s4.beginRound.flush
    { s5 with port.versions := [], work := Work.none }
  else s

/-- ENTER_SETUP (R177): at the end of BOOT. -/
def execEnterSetup (s : State) : Host.Outcome State Fault Refusal := .next s.enterSetup

end Sys2Proof.Machine
end

