-- ==== Sys2Proof/Machine/OrderUnit.lean ====
section
/-! DEFINITION. The Order Unit: the taking of a slot, the acceptance checks and the two ways an order goes (R10 to R17). -/

namespace Sys2Proof.Machine

open Sys2Proof.Config

/-- How the owning block judges an order that passed steps 1 to 6: it ends in the step that takes it, with result, qualifier,
result values and the state its effects leave; or it is entered in the in-flight list, and its effects follow. -/
inductive Judged where
  | ends (r : OrderResult) (q : Nat) (vals : List Byte) (s : State)
  | enters (effects : State → State)

/-- A refusal of the owning block: nothing changes. -/
def refuse (r : OrderResult) (q : Nat) (s : State) : Judged := .ends r q [] s

/-- What the Order Unit knows of an order: its code, the target of a long one, whether its check byte matches, whether SETUP
accepts it (Table 1-6), the offset of the first field out of range, and the owning block's judgement. -/
structure OrderSpec where
  code : Nat
  target : Option (TargetKind × Nat)
  checkOk : Bool
  inSetup : Bool
  bad : Option Nat
  own : State → Judged

/-- The head a channel in use names. -/
def State.headOf (s : State) (i : Nat) : Option Nat := (s.channel? i).map (·.head)

/-- An in-flight entry holds a target in conflict (Table 1-8). -/
def State.conflicts (s : State) (t : TargetKind) (i : Nat) (e : InFlight) : Bool :=
  match t, e.target with
  | .channel, .channel => decide (e.index = i)
  | .channel, .head => decide (s.headOf i = some e.index)
  | .head, .head => decide (e.index = i)
  | .head, .channel => decide (s.headOf e.index = some i)
  | .roster, .roster => decide (e.index = i)
  | .loop, .loop => true
  | _, _ => false

/-- Step 5 of R12: BUSY; the automatic roll call holds the LOOP target without an entry (R14). -/
def State.targetBusy (s : State) (t : TargetKind) (i : Nat) : Bool :=
  s.orders.inFlight.any (s.conflicts t i) ||
    (decide (t = .loop) && s.loop.rollCall.isSome)

/-- A refusal of steps 1 to 6 of R12 (Table 1-5), in their order. -/
def State.refusal (s : State) (o : OrderSpec) : Option (OrderResult × Nat) :=
  if !o.checkOk then some (.badCheck, 0)
  else if !s.running && !o.inSetup then some (.notNow, 0)
  else
    match o.bad with
    | some off => some (.badArgument, off)
    | none =>
      match o.target with
      | some (t, i) =>
        if s.targetBusy t i then some (.busy, 0)
        else if inFlightMax ≤ s.orders.inFlight.length then some (.full, 0)
        else none
      | none => none

/-- An order is entered in the in-flight list and its slot written TAKEN, with result, qualifier and result values 0 (R11,
R14). -/
def State.enterFlight (s : State) (n : Nat) (o : OrderSpec) (t : TargetKind) (i : Nat) : State :=
  let s1 := s.putInFlight (s.orders.inFlight ++
    [{ slot := n, take := s.orders.takes, code := o.code, target := t, index := i, start := s.now }])
  ((s1.writeSlot n 4 [0#8, 0#8]).writeSlot n 56 (resultBytes [])).writeSlot n 0 [handTaken]

/-- The take itself (R11): the take counter and the slot's take number, and the scan position. -/
def State.beginTake (s : State) (n : Nat) : State :=
  let k := s.orders.takes + 1#16
  { s with orders.takes := k, orders.scanPos := n }.writeSlot n 2 (leBytes 2 k.toNat)

/-- The judgement of a taken order and what it leaves (R11 to R14): the effects of an order that ends are made before its slot
shows DONE; an entry to HALTED among them stops the Order Unit (R18). -/
def State.judgeOrder (s : State) (n : Nat) (o : OrderSpec) : State :=
  match s.refusal o with
  | some (r, q) => s.writeDone n r q []
  | none =>
    match o.own s with
    | .ends r q vals s' => if s'.finish.active then s'.finish.writeDone n r q vals else s'.finish
    | .enters effects =>
      match o.target with
      | some (t, i) => effects (s.enterFlight n o t i)
      | none => s

/-- The scan goes on past a visited slot; at its end a pending request starts a new scan (R10). -/
def State.advanceScan (s : State) : State :=
  if s.orders.scanRunning then
    let left := s.orders.left - 1
    if left = 0 then
      if s.orders.scanPending then
        { s with
          orders.scanPending := false
          orders.next := (s.orders.scanPos + 1) % slotCount
          orders.left := slotCount }
      else { s with orders.scanRunning := false, orders.left := 0 }
    else { s with orders.next := (s.orders.next + 1) % slotCount, orders.left := left }
  else s

/-- A visit that takes a slot with an order of the catalogue. -/
def State.visitTake (s : State) (n : Nat) (o : OrderSpec) : State := ((s.beginTake n).judgeOrder n o).advanceScan

/-- A visit that takes a slot whose code is not in the catalogue: UNKNOWN_ORDER (step 1 of R12). -/
def State.visitUnknown (s : State) (n : Nat) : State :=
  ((s.beginTake n).writeDone n .unknownOrder 0 []).advanceScan

/-- The running scan's next slot can be taken: POSTED, and its number held by no in-flight entry (R10, R11). -/
def State.takeable (s : State) (n : Nat) : Bool :=
  s.orders.scanRunning && decide (s.orders.next = n) && decide (n < slotCount) && decide (s.handOver n = handPosted)
    && !s.orders.inFlight.any fun e => decide (e.slot = n)

/-- The bytes the Order Unit reads of a slot at a visit: the hand-over field, and of a slot it takes the order code and the
arguments (R11). A check bit among them that does not match leads to HALTED (R6). DESIGN CHOICE, log entry 16. -/
def State.slotReadBad (s : State) (n : Nat) : Bool :=
  s.port.badBytes.any fun a =>
    decide (a = slotAddr n 0) || (s.takeable n &&
      (decide (a = slotAddr n 1) || (decide (slotAddr n 8 ≤ a) && decide (a ≤ slotAddr n 55))))

/-- The running scan's next visit takes this order from this slot. DESIGN CHOICE, log entry 3. -/
def State.presents (s : State) (n : Nat) (i : Instr) : Bool :=
  s.active && s.takeable n && decide (s.decodeOrder n = some i)

/-- An order's command: the step of the scan that takes it, where the scan's next visit takes exactly this order; without
effect otherwise. -/
def State.takeOrder (s : State) (n : Nat) (i : Instr) (o : OrderSpec) : Host.Outcome State Fault Refusal :=
  .next
    (if s.presents n i then
      s.event fun s => if s.slotReadBad n then s.halt .exchangeFault else s.visitTake n o
    else s)

end Sys2Proof.Machine
end

