-- ==== Sys2Proof/Machine/SetupOrders.lean ====
section
/-! DEFINITION. The orders that configure heads, channels, zones, refuges, roster, vehicles, patterns and inputs (R42, R43, R51 to
R53, R73, R74, R109, R126, R142, R167, R174). Each order's meaning is the scan's visit that takes it. -/

namespace Sys2Proof.Machine

open Sys2Proof.Config

/-- The first check that fails gives the refusal. -/
def firstRefusal (l : List (Bool × OrderResult × Nat)) : Option (OrderResult × Nat) :=
  (l.find? fun c => c.1).map Prod.snd

/-- Ends an order by the owner's checks, or with the effects given. -/
def judgeChecks (s : State) (l : List (Bool × OrderResult × Nat)) (effects : Unit → Judged) : Judged :=
  match firstRefusal l with
  | some (r, q) => refuse r q s
  | none => effects ()

/-! ### SET HEAD and RETIRE HEAD (R42, R43) -/

/-- A test in flight on a head or on a channel of it. -/
def State.testOn (s : State) (a : Nat) : Bool :=
  (lookupAt s.tests.checks a).isSome || (s.headChannels a).any fun i =>
    (lookupAt s.tests.bumps i).isSome || (lookupAt s.tests.cals i).isSome

/-- Another configured head at a loop position. -/
def State.headAtPosition (s : State) (a pos : Nat) : Option Nat :=
  (s.loop.heads.find? fun p => p.2.configured && decide (p.2.position = pos) && !decide (p.1 = a)).map Prod.fst

/-- Configured heads of a kind other than the address given. -/
def State.countKind (s : State) (a : Nat) (k : HeadKind) : Nat :=
  (s.loop.heads.filter fun p => p.2.configured && decide (p.2.kind = k) && !decide (p.1 = a)).length

/-- Channels that a change of a head leaves not attached are handled as at a leaving of ONLINE (R54, R66, R103). -/
def State.detachChannels (before s : State) (a : Nat) : State :=
  let lost := (s.headChannels a).filter fun i =>
    match s.channel? i with
    | some c => before.attached c && !s.attached c
    | none => false
  let inCheck := lost.any fun i => decide ((s.channel? i).map (·.state) = some .selfcheck)
  let s1 := (s.airLeaves lost).testsLeaveChannels lost
  if inCheck then s1.testLeavesHead a else s1

/-- A reader's downlink list follows a change of its head's kind (R120). -/
def State.moveList (s : State) (a : Nat) (was is : Bool) : State :=
  if was = is then s else if is then s.assignPosition a else s.freeReader a

/-- The effects of an accepted SET HEAD (R42). DEDUCED, log entry 24. -/
def State.setHead (s : State) (x : HeadArgs) : State :=
  let a := x.address
  let h := s.head a
  let inner := s.headInner a
  let kind := HeadKind.ofCode x.kind
  let count := match kind with
    | .gas | .relay => x.count
    | .reader | .refuge | .sounder => 0
  let same := h.configured && decide (h.kind = kind) && decide (h.serial = some x.serial)
  let configured : Head :=
    { h with
      configured := true, kind := kind, position := x.position, count := count, window := x.window
      serial := some x.serial }
  let unknown : Head :=
    { (configured.withHistory []) with link := if h.link = .clash then .clash else .unknown }
  let new : Head :=
    if same then configured
    else if h.configured then unknown
    else { unknown with missed := 0, preferred := .a }
  let inner' : HeadInner :=
    if same then inner
    else if h.configured then { inner with history := [] }
    else { inner with history := [], toggle := false }
  let s1 := (s.putHead a new).putInner a inner'
  let s2 := s1.moveList a (h.configured && decide (h.kind = .reader)) (decide (kind = .reader))
  let s3 := (s2.linkNews a h.link new.link).linkFollow a h.kind h.link new.link
  (State.detachChannels s s3 a).judgeRefuges fun r => decide (r.panel = a)

/-- SET HEAD (R42). -/
def headOrder (x : HeadArgs) : OrderSpec :=
  { code := 0x02, target := none, checkOk := true, inSetup := true, bad := headBad x
    own := fun s =>
      let h := s.head x.address
      let kind := HeadKind.ofCode x.kind
      let changes := h.configured && (!decide (h.kind = kind) || !decide (h.serial = some x.serial))
      let other := s.headAtPosition x.address x.position
      judgeChecks s
        [(changes && s.testOn x.address, .busy, 0), (other.isSome, .badSetup, other.getD 0),
         (decide (kind = .reader) && decide (downlinkLists ≤ s.countKind x.address .reader), .full, 0),
         (decide (kind = .refuge) && decide (refugeCount ≤ s.countKind x.address .refuge), .full, 0)]
        fun _ => .ends .ok 0 [] (s.setHead x) }

/-- Every exchange in progress with a head, a roll call's and an address assignment's IDENTIFY among them, is abandoned, and the
head is passed over for the rest of the round (R40, R43). A miss of the address stays among the round's. DESIGN CHOICE, log
entry 62. -/
def State.abandon (s : State) (a : Nat) : State :=
  { s with
    loop.round := s.loop.round.map fun r => { r with due := removeNat r.due a }
    loop.exchange := s.loop.exchange.map fun ex =>
      match ex.purpose with
      | .due | .continuation _ | .interposed | .rollCall | .assignCheck =>
        if ex.frame.address = a then { ex with abandoned := true } else ex
      | .marker | .assignFrame => ex }

/-- The effects of an accepted RETIRE HEAD (R43). -/
def State.retireHead (s : State) (a : Nat) : State :=
  let h := s.head a
  let new : Head :=
    { (h.withHistory []) with configured := false, link := if h.link = .clash then .clash else .unconfigured }
  let s1 := (s.putHead a new).putInner a { s.headInner a with history := [] }
  let s2 := (s1.moveList a (decide (h.kind = .reader)) false).abandon a
  let s3 := (s2.linkNews a h.link new.link).linkFollow a h.kind h.link new.link
  (State.detachChannels s s3 a).judgeRefuges fun r => decide (r.panel = a)

/-- RETIRE HEAD (R43). -/
def retireOrder (a : Nat) : OrderSpec :=
  { code := 0x03, target := none, checkOk := true, inSetup := true, bad := firstBad [(8, inRange a 1 63)]
    own := fun s =>
      judgeChecks s [(!(s.head a).configured, .noTarget, 0), (s.testOn a, .busy, 0)]
        fun _ => .ends .ok 0 [] (s.retireHead a) }

/-! ### SET CHANNEL (R51 to R53) -/

/-- The thresholds and hysteresis after the clamps of R53, with the offset of the first field clamped. -/
def clampThresholds (ceiling : Nat) (k : ChannelKind) (l1 l2 l3 h : Nat) : (Nat × Nat × Nat × Nat) × Option Nat :=
  let ranged := decide (k = .ch4) && decide (ceiling < l3)
  let l1' := if ranged then min l1 ceiling else l1
  let l2' := if ranged then min l2 ceiling else l2
  let l3' := if ranged then ceiling else l3
  let h' := min h k.hystCeiling
  ((l1', l2', l3', h'),
    firstBad [(20, decide (l1 = l1')), (22, decide (l2 = l2')), (24, decide (l3 = l3')), (26, decide (h = h'))])

/-- The thresholds are in the order of the kind (R51, check 4). -/
def thresholdsOrdered (k : ChannelKind) (l1 l2 l3 : Nat) : Bool :=
  if k.rising then decide (l1 ≤ l2) && decide (l2 ≤ l3) else decide (l3 ≤ l2) && decide (l2 ≤ l1)

/-- An in-flight entry holds a channel, or a head under a SELF CHECK (R51, check 1). -/
def State.heldInFlight (s : State) (i : Nat) (heads : List Nat) : Bool :=
  s.orders.inFlight.any fun e =>
    match e.target with
    | .channel => decide (e.index = i)
    | .head => heads.contains e.index
    | .roster | .loop => false

/-- The zone argument of SET CHANNEL: 0xFF for none. -/
def zoneArg (z : Nat) : Option Nat := if z = absent8 then none else some z

/-- A channel record as SET CHANNEL restarts it (R52). -/
def restartedChannel (x : ChannelArgs) (t : Nat × Nat × Nat × Nat) (stamp : Nat) : Channel :=
  { kind := ChannelKind.ofCode x.kind, head := x.head, slot := x.slot, zone := zoneArg x.zone, zero := x.zero,
    span := x.span, gas := x.gas, l1 := t.1, l2 := t.2.1, l3 := t.2.2.1, hyst := t.2.2.2, window := x.window,
    state := .fault, cause := some .link, lastRaw := none, v := 0, mean := none, level := 0, overRange := false, n := 0,
    changed := stamp }

/-- The order changes only the zone, the thresholds, H or W of a channel in NORMAL or SETTLING (R52). -/
def keepsState (x : ChannelArgs) (c : Channel) : Bool :=
  c.state.healthy && decide (c.kind = ChannelKind.ofCode x.kind) && decide (c.head = x.head) && decide (c.slot = x.slot)
    && decide (c.zero = x.zero) && decide (c.span = x.span) && decide (c.gas = x.gas)

/-- The news of a SET CHANNEL: CHANNEL_LEVEL and the events, CHANNEL_STATE_CHANGE always where `forced` (R68). An absent last raw
is logged as 0 (DESIGN CHOICE, log entry 48), and a removal logs the state change alone (DESIGN CHOICE, log entry 49). -/
def State.setChannelNews (s : State) (i : Nat) (old new : Option Channel) (forced : Bool) : State :=
  let moved := forced || !decide (Channel.side old = Channel.side new)
  let levels := (old.map (·.level), new.map (·.level))
  let levelled := match levels with
    | (some a, some b) => !decide (a = b)
    | _ => false
  let ranged := match old.map (·.overRange), new.map (·.overRange) with
    | some a, some b => !decide (a = b)
    | _, _ => false
  let s1 := s.raiseOnceIf (moved || levelled) .channelLevel i
  let s2 := s1.appendIf moved 0x20 clsChannel i (Channel.side old) (Channel.side new)
  let s3 := s2.appendIf ranged 0x21 clsChannel i ((new.map fun c => c.overRange.toNat).getD 0)
    (((new.bind (·.lastRaw))).getD 0)
  s3.appendIf levelled 0x22 clsChannel i ((old.map (·.level)).getD 0) ((new.map (·.level)).getD 0)

/-- What the Zone Unit is told of a channel by SET CHANNEL: use, zone, kind, health and a healthy channel's level (R52). -/
def zoneSees (o : Option Channel) : Option (Option Nat × ChannelKind × Bool × Nat) :=
  o.map fun c => (c.zone, c.kind, c.state.healthy, if c.state.healthy then c.level else 0)

/-- What follows a SET CHANNEL: the news, a recovery that ends REMOVED, the report for the old and the new zone where something
it tells of has changed, and the judgement of the refuges that name the channel (R52, R75, R97, R145). -/
def State.setChannelFollows (s : State) (i : Nat) (old new : Option Channel) (forced : Bool) : State :=
  let s1 := s.setChannelNews i old new forced
  let s2 := if forced then s1.dropRecovery i else s1
  s2.reportChannel i
    (if zoneSees old = zoneSees new then [] else (old.bind (·.zone)).toList ++ (new.bind (·.zone)).toList)

/-- REMOVE (R52). -/
def State.removeChannel (s : State) (i : Nat) : State :=
  let s1 := ({ s with
    air.channels := dropAt s.air.channels i
    air.windows := dropAt s.air.windows i } : State).bump (channelBase + i * channelSize)
  s1.setChannelFollows i (s.channel? i) none true

/-- A window cut to a length, the oldest values removed (R52). -/
def trimWindow (w : Nat) (l : List Nat) : List Nat := l.drop (l.length - w)

/-- SET (R52). -/
def State.applyChannel (s : State) (x : ChannelArgs) (t : Nat × Nat × Nat × Nat) : State :=
  let i := x.index
  let old := s.channel? i
  match old with
  | some c =>
    if keepsState x c then
      let y : Cell := Cell.evaluated
        { chan := { c with zone := zoneArg x.zone, l1 := t.1, l2 := t.2.1, l3 := t.2.2.1, hyst := t.2.2.2,
                           window := x.window, changed := s.stamp }
          win := trimWindow x.window (s.channelWindow i) }
      ((s.putWindow i y.win).putChannel i y.chan).setChannelFollows i old (some y.chan) false
    else
      let n := restartedChannel x t s.stamp
      ((s.putWindow i []).putChannel i n).setChannelFollows i old (some n) true
  | none =>
    let n := restartedChannel x t s.stamp
    ((s.putWindow i []).putChannel i n).setChannelFollows i old (some n) true

/-- SET CHANNEL (R51). -/
def channelOrder (x : ChannelArgs) : OrderSpec :=
  { code := 0x04, target := none, checkOk := true, inSetup := true, bad := channelBad x
    own := fun s =>
      let i := x.index
      let old := s.channel? i
      let k := ChannelKind.ofCode x.kind
      let recordHead := (old.map (·.head)).toList
      if x.op = 0 then
        judgeChecks s [(s.heldInFlight i recordHead, .busy, 0), (old.isNone, .noTarget, 0)]
          fun _ => .ends .ok 0 [] (s.removeChannel i)
      else
        let clash := (s.air.channels.find? fun p =>
          decide (p.2.head = x.head) && decide (p.2.slot = x.slot) && !decide (p.1 = i)).map Prod.fst
        let h := s.head x.head
        let panel := h.configured && decide (h.kind = .refuge)
        let panelOk := (decide (x.slot = 0) && decide (k = .o2)) || (decide (x.slot = 1) && decide (k = .co))
        judgeChecks s
          [(s.heldInFlight i (x.head :: recordHead), .busy, 0), (decide (x.span < x.zero + minSpan), .badArgument, 16),
           (!thresholdsOrdered k x.l1 x.l2 x.l3, .badArgument, 20), (clash.isSome, .badSetup, clash.getD 0),
           (panel && !panelOk, .badSetup, 12)]
          fun _ =>
            let (t, first) := clampThresholds s.supply.policy.tripCeiling k x.l1 x.l2 x.l3 x.hyst
            let s' := s.applyChannel x t
            match first with
            | some off => .ends .okClamped off [] s'
            | none => .ends .ok 0 [] s' }

/-! ### SET ZONE (R73, R74, R113) -/

def namesTwice {α : Type} [DecidableEq α] : List α → Bool
  | [] => false
  | x :: xs => xs.contains x || namesTwice xs

/-- The other zone in use whose record has a property. -/
def State.otherZone (s : State) (z : Nat) (p : Zone → Bool) : Option Nat :=
  (s.zone.zones.find? fun x => x.2.inUse && !decide (x.1 = z) && p x.2).map Prod.fst

/-- Another zone in use that already names one of the readers, sounders or relay pairs given (R73, check 6): readers first, then
sounders, then relays, each in list order. DESIGN CHOICE, log entry 52. -/
def State.namedElsewhere (s : State) (z : Nat) (readers sounders : List Nat) (relays : List (Nat × Nat)) : Option Nat :=
  ((readers.findSome? fun a => s.otherZone z fun r => r.readers.contains a).orElse fun _ =>
    sounders.findSome? fun a => s.otherZone z fun r => r.sounders.contains a).orElse fun _ =>
    relays.findSome? fun c => s.otherZone z fun r => r.relays.contains c

/-- A neighbour list keeps the graph symmetric (R73, check 7). -/
def State.symmetricWith (s : State) (z : Nat) (ns : List Nat) : Bool :=
  (ns.all fun b => (s.zoneRec b).inUse && (s.zoneRec b).neighbours.contains z)
    && s.zone.zones.all fun p => !(p.2.inUse && p.2.neighbours.contains z) || ns.contains p.1

/-- The lists of a SET ZONE: the places within each count. -/
def cutZone (x : ZoneArgs) : ZoneArgs :=
  { x with
    neighbours := x.neighbours.take x.nNeighbours
    readers := x.readers.take x.nReaders
    relays := x.relays.take x.nRelays
    sounders := x.sounders.take x.nSounders }

/-- A zone record with the configuration of an order. -/
def Zone.configured (r : Zone) (x : ZoneArgs) (stamp : Nat) : Zone :=
  { r with
    inUse := true, kind := ZoneKind.ofCode x.kind, powered := decide (x.powered = 1), vote := x.vote
    neighbours := x.neighbours, readers := x.readers, relays := x.relays, sounders := x.sounders, changed := stamp }

/-- The roster entries and vehicles of a zone follow a SET ZONE (R113, R128): a change of kind re-judges PRESENT and AT_REFUGE,
a removal makes them LOST, in ascending index (DESIGN CHOICE, log entry 64). -/
def State.followZone (s : State) (z : Nat) (removed : Bool) (kind : ZoneKind) : State :=
  let target (m : Miner) : MinerState :=
    match m.state with
    | .present => if removed then .lost else if kind = .refuge then .atRefuge else .present
    | .atRefuge => if removed then .lost else if kind = .refuge then .atRefuge else .present
    | st => st
  let s1 := forEach (keysOf s.people.roster)
    (fun i s => match s.miner? i with
      | some m =>
        if m.zone = some z ∧ target m ≠ m.state then s.minerEnters i m (target m) else s
      | none => s) s
  if removed then
    forEach s1.vehicleIds
      (fun i s => match s.vehicle? i with
        | some v => if v.state = .present ∧ v.zone = some z then s.commitVehicle i (some { v with state := .lost }) else s
        | none => s) s1
  else s1

/-- Every vehicle in use is evaluated for encounters, in ascending index (R135). -/
def State.evaluateVehicles (s : State) : State :=
  forEach s.vehicleIds
    (fun i s => match s.vehicle? i with
      | some v => s.commitVehicle i (some v)
      | none => s) s

/-- The effects of an accepted SET ZONE (R74). The evaluation of a removed entry starts from a blank one, so a COVERED zone is logged
as leaving cover. DESIGN CHOICE, log entry 51. An entry that comes into use starts with its aggregates rebuilt and its cover judged, so
neither COVER_CHANGE nor VENTILATION_LOSS is logged for it. DESIGN CHOICE, log entry 66. -/
def State.setZone (s : State) (x0 : ZoneArgs) : State :=
  let x := cutZone x0
  let z := x.zone
  let r := s.zoneRec z
  let removing := decide (x.op = 0)
  let base := if r.inUse then r else { Zone.blank with trip := r.trip, cause := r.cause }
  let taken := s.withAggregates z (base.configured x s.stamp)
  let new : Zone :=
    if removing then { r with inUse := false, changed := s.stamp }
    else if r.inUse then taken
    else { taken with covered := taken.isCovered }
  let relays := if removing then [] else x.relays
  let s1 := s.putZone z new
  let s2 : State :=
    { s1 with
      zone.circuits := s1.zone.circuits.filter fun c =>
        decide ((relays.contains (c.head, c.circuit)) = (r.relays.contains (c.head, c.circuit))) }
  let start := if removing then { Zone.blank with changed := s.stamp } else new
  let s3 := s2.evaluate z { start := start, clear := false, expired := false }
  let s4 := State.markChanges s (s3.setChoice z false)
  let s5 := if removing then s4.judgeDistrict else s4
  let s6 := s5.followZone z removing (ZoneKind.ofCode x.kind)
  let neighbours := if removing then [] else x.neighbours
  let s7 := if neighbours = r.neighbours then s6 else s6.evaluateVehicles
  s7.askRecompute

/-- SET ZONE (R73). Which list check 4 judges first: DESIGN CHOICE, log entry 52. -/
def zoneOrder (x0 : ZoneArgs) : OrderSpec :=
  { code := 0x05, target := none, checkOk := true, inSetup := true, bad := zoneBad x0
    own := fun s =>
      let x := cutZone x0
      let z := x.zone
      let r := s.zoneRec z
      if x.op = 0 then
        judgeChecks s [(!r.inUse, .noTarget, 0), (s.running, .notNow, 9)] fun _ => .ends .ok 0 [] (s.setZone x0)
      else
        let elsewhere := s.namedElsewhere z x.readers x.sounders x.relays
        judgeChecks s
          [(s.running && r.inUse && !decide (r.kind = ZoneKind.ofCode x.kind), .notNow, 10),
           (x.neighbours.contains z || namesTwice x.neighbours, .badArgument, 14),
           (namesTwice x.readers, .badArgument, 19), (namesTwice x.sounders, .badArgument, 31),
           (namesTwice x.relays, .badArgument, 22),
           (decide (x.powered = 0) && !x.relays.isEmpty, .badSetup, 21), (elsewhere.isSome, .badSetup, elsewhere.getD 0),
           (s.running && !s.symmetricWith z x.neighbours, .badSetup, 13)]
          fun _ => .ends .ok 0 [] (s.setZone x0) }

/-! ### SET REFUGE (R142) -/

/-- The effects of an accepted SET REFUGE (R142). DEDUCED, log entry 41; a removal's event DEDUCED, log entry 56; the mismatch flag at a new
panel DESIGN CHOICE, log entry 60. -/
def State.setRefuge (s : State) (x : RefugeArgs) : State :=
  let i := x.index
  match s.refuge? i with
  | some r =>
    if x.op = 0 then
      let s1 := (s.dropRefuge i).raiseOnce .refugeState i
      if r.usable then (s1.askRecompute).append 0x71 clsRefuge i 0 0 else s1
    else if r.panel = x.panel then
      s.changeRefuge i
        { r with
          zone := x.zone, capacity := x.capacity, o2 := x.o2, co := x.co
          doorOcc := doorOccupancy r.inCount r.outCount x.capacity
          tagOcc := if r.zone = x.zone then r.tagOcc else s.atRefuge x.zone } false
    else
      s.changeRefuge i
        { r with
          zone := x.zone, panel := x.panel, capacity := x.capacity, o2 := x.o2, co := x.co, door := .closed
          inCount := 0, outCount := 0, doorOcc := 0, battery := .ok, pulled := false, mismatch := false
          tagOcc := s.atRefuge x.zone } false
  | none =>
    if x.op = 0 then s
    else
      s.changeRefuge i
        { zone := x.zone, panel := x.panel, capacity := x.capacity, door := .closed, inCount := 0, outCount := 0,
          doorOcc := 0, tagOcc := s.atRefuge x.zone, o2 := x.o2, co := x.co, battery := .ok, pulled := false,
          usable := false, reasons := 0, mismatch := false } false

/-- Another refuge in use with a property. -/
def State.otherRefuge (s : State) (i : Nat) (p : Refuge → Bool) : Option Nat :=
  (s.route.refuges.find? fun x => !decide (x.1 = i) && p x.2).map Prod.fst

/-- SET REFUGE (R142). -/
def refugeOrder (x : RefugeArgs) : OrderSpec :=
  { code := 0x06, target := none, checkOk := true, inSetup := true, bad := refugeBad x
    own := fun s =>
      if x.op = 0 then
        judgeChecks s [((s.refuge? x.index).isNone, .noTarget, 0)] fun _ => .ends .ok 0 [] (s.setRefuge x)
      else
        let zoned := s.otherRefuge x.index fun r => decide (r.zone = x.zone)
        let panelled := s.otherRefuge x.index fun r => decide (r.panel = x.panel)
        judgeChecks s
          [(decide (x.o2 = x.co), .badArgument, 14), (zoned.isSome, .badSetup, zoned.getD 0),
           (panelled.isSome, .badSetup, panelled.getD 0 + 0x10)]
          fun _ => .ends .ok 0 [] (s.setRefuge x) }

/-! ### SET ROSTER ENTRY (R109) -/

/-- The effects of an accepted SET ROSTER ENTRY. -/
def State.setRoster (s : State) (i op tag person : Nat) : State :=
  if op = 0 then s.freeMiner i
  else
    match s.miner? i with
    | some m =>
      if m.tag = tag then s.putMiner i { m with person := person }
      else s.commitMiner i (some (Miner.fresh tag person)) .none
    | none => s.commitMiner i (some (Miner.fresh tag person)) .none

/-- SET ROSTER ENTRY (R109). -/
def rosterOrder (i op tag person : Nat) : OrderSpec :=
  { code := 0x07, target := none, checkOk := true, inSetup := true, bad := rosterBad i op tag person
    own := fun s =>
      let paged := s.orders.inFlight.any fun e => decide (e.target = .roster) && decide (e.index = i)
      let holder := (s.people.roster.find? fun p => decide (p.2.tag = tag) && !decide (p.1 = i)).map Prod.fst
      judgeChecks s
        [(paged, .busy, 0), (decide (op = 0) && (s.miner? i).isNone, .noTarget, 0),
         (!decide (op = 0) && holder.isSome, .badSetup, holder.getD 0)]
        fun _ => .ends .ok 0 [] (s.setRoster i op tag person) }

/-! ### SET VEHICLE (R126) -/

def driveOf (n : Nat) : DriveKind := if n = 0 then .diesel else .electric

/-- The effects of an accepted SET VEHICLE. -/
def State.setVehicle (s : State) (x : VehicleArgs) : State :=
  let fresh := Vehicle.fresh x.tag x.number (driveOf x.drive)
  if x.op = 0 then s.commitVehicle x.index none
  else
    match s.vehicle? x.index with
    | some v =>
      if v.tag = x.tag then s.commitVehicle x.index (some { v with number := x.number, drive := driveOf x.drive })
      else s.commitVehicle x.index (some fresh)
    | none => s.commitVehicle x.index (some fresh)

/-- SET VEHICLE (R126). -/
def vehicleOrder (x : VehicleArgs) : OrderSpec :=
  { code := 0x08, target := none, checkOk := true, inSetup := true, bad := vehicleBad x
    own := fun s =>
      let holder := (s.haul.vehicles.find? fun p => decide (p.2.tag = x.tag) && !decide (p.1 = x.index)).map Prod.fst
      judgeChecks s
        [(decide (x.op = 0) && (s.vehicle? x.index).isNone, .noTarget, 0),
         (!decide (x.op = 0) && holder.isSome, .badSetup, holder.getD 0)]
        fun _ => .ends .ok 0 [] (s.setVehicle x) }

/-! ### SET PATTERN (R167) -/

/-- The effects of an accepted SET PATTERN (R167, R168): a change restarts every use of the pattern, and inverts the sequence bit
of each zone whose choice names it once. -/
def State.setPattern (s : State) (i : Nat) (p : Pattern) : State :=
  if s.pattern i = p then s
  else
    let s1 := s.putPattern i p
    let users := ((keysOf s1.alarm.choices).filter fun z => decide ((s1.choice z).pattern = some i)).foldl insertNat []
    let s2 := State.markChanges s (forEach users (fun z s => s.setChoice z true) s1)
    if s2.alarm.play.pattern = some i then s2.restartPlay else s2

/-- SET PATTERN (R167). -/
def patternOrder (x : PatternArgs) : OrderSpec :=
  { code := 0x09, target := none, checkOk := true, inSetup := true, bad := patternBad x
    own := fun s =>
      let s' := s.setPattern x.index ⟨max 1 x.onTime, x.offTime, x.duty, x.repeats⟩
      if x.onTime = 0 then .ends .okClamped 9 [] s' else .ends .ok 0 [] s' }

/-! ### SET INPUT (R174) -/

/-- The input after the configuration of an order. -/
def Input.configured (i : Input) (x : InputArgs) : Input :=
  let edge := decide (x.mode = 1)
  let low := decide (x.polarity = 1)
  let on := decide (x.enable = 1)
  let cleared := decide (x.clear = 1) || !decide (i.edge = edge) || !decide (i.activeLow = low) || !decide (i.enabled = on)
  let i1 : Input := { i with edge := edge, activeLow := low, enabled := on, latch := i.latch && !cleared }
  { i1 with status := i1.formed x.input }

/-- The effects of SET INPUT. -/
def State.setInput (s : State) (x : InputArgs) : State :=
  let n := x.input
  let i := s.input n
  let i' := i.configured x
  let oldZone := s.supply.in4Zone
  let newZone := if n = 4 then zoneArg x.zone else oldZone
  let s1 : State := { (s.putInput n i') with supply.in4Zone := newZone }
  let s2 := if i.status = i'.status then s1 else (s1.bumpSummary).statusFollows n
  if oldZone = newZone then s2 else s2.evalZones (oldZone.toList ++ newZone.toList)

/-- SET INPUT (R174). -/
def inputOrder (x : InputArgs) : OrderSpec :=
  { code := 0x0A, target := none, checkOk := true, inSetup := true, bad := inputBad x
    own := fun s =>
      let s' := s.setInput x
      let i := s'.input x.input
      .ends .ok 0 [BitVec.ofNat 8 i.raw.toNat, BitVec.ofNat 8 i.status.toNat] s' }

/-! ### The commands -/

/-- SET_HEAD (R42). -/
def execSetHead (slot : Nat) (a : HeadArgs) (s : State) : Host.Outcome State Fault Refusal :=
  s.takeOrder slot (.setHead slot a) (headOrder a)

/-- RETIRE_HEAD (R43). -/
def execRetireHead (slot address : Nat) (s : State) : Host.Outcome State Fault Refusal :=
  s.takeOrder slot (.retireHead slot address) (retireOrder address)

/-- SET_CHANNEL (R51). -/
def execSetChannel (slot : Nat) (a : ChannelArgs) (s : State) : Host.Outcome State Fault Refusal :=
  s.takeOrder slot (.setChannel slot a) (channelOrder a)

/-- SET_ZONE (R73). -/
def execSetZone (slot : Nat) (a : ZoneArgs) (s : State) : Host.Outcome State Fault Refusal :=
  s.takeOrder slot (.setZone slot a) (zoneOrder a)

/-- SET_REFUGE (R142). -/
def execSetRefuge (slot : Nat) (a : RefugeArgs) (s : State) : Host.Outcome State Fault Refusal :=
  s.takeOrder slot (.setRefuge slot a) (refugeOrder a)

/-- SET_ROSTER_ENTRY (R109). -/
def execSetRosterEntry (slot index op tag person : Nat) (s : State) : Host.Outcome State Fault Refusal :=
  s.takeOrder slot (.setRosterEntry slot index op tag person) (rosterOrder index op tag person)

/-- SET_VEHICLE (R126). -/
def execSetVehicle (slot : Nat) (a : VehicleArgs) (s : State) : Host.Outcome State Fault Refusal :=
  s.takeOrder slot (.setVehicle slot a) (vehicleOrder a)

/-- SET_PATTERN (R167). -/
def execSetPattern (slot : Nat) (a : PatternArgs) (s : State) : Host.Outcome State Fault Refusal :=
  s.takeOrder slot (.setPattern slot a) (patternOrder a)

/-- SET_INPUT (R174). -/
def execSetInput (slot : Nat) (a : InputArgs) (s : State) : Host.Outcome State Fault Refusal :=
  s.takeOrder slot (.setInput slot a) (inputOrder a)

end Sys2Proof.Machine
end

