-- ==== Sys2Proof/Machine/PolicyOrders.lean ====
section
/-! DEFINITION. SET POLICY, START DISTRICT and SET CLOCK (R176, R178, R180). -/

namespace Sys2Proof.Machine

open Sys2Proof.Config

/-! ### SET POLICY (R180) -/

/-- A field of SET POLICY: its present value where its bytes are all ones, the argument otherwise. -/
def kept (bytes old v : Nat) : Nat := if keeps bytes v then old else v

/-- The policy fields after the order. -/
def Policy.taken (p : Policy) (a : PolicyArgs) : Policy :=
  { pollPeriod := kept 2 p.pollPeriod a.pollPeriod
    tripCeiling := kept 2 p.tripCeiling a.tripCeiling
    blindGrace := kept 2 p.blindGrace a.blindGrace
    lostTime := kept 2 p.lostTime a.lostTime
    onboardLimit := kept 2 p.onboardLimit a.onboardLimit
    zeroTolerance := kept 2 p.zeroTolerance a.zeroTolerance
    evacPolicy := if keeps 1 a.evacPolicy then p.evacPolicy else EvacPolicy.ofCode a.evacPolicy
    askWindow := kept 2 p.askWindow a.askWindow
    musterDeadline := kept 1 p.musterDeadline a.musterDeadline
    patEvacuate := kept 1 p.patEvacuate a.patEvacuate
    patDrill := kept 1 p.patDrill a.patDrill
    patTrip := kept 1 p.patTrip a.patTrip
    patAlarm := kept 1 p.patAlarm a.patAlarm
    patWarn := kept 1 p.patWarn a.patWarn
    patFault := kept 1 p.patFault a.patFault }

/-- The mask of changed fields, bit n for the field of bit n in the table. -/
def Policy.changes (p q : Policy) : Nat :=
  let bits : List Bool :=
    [decide (p.pollPeriod = q.pollPeriod), decide (p.tripCeiling = q.tripCeiling), decide (p.blindGrace = q.blindGrace),
     decide (p.lostTime = q.lostTime), decide (p.onboardLimit = q.onboardLimit),
     decide (p.zeroTolerance = q.zeroTolerance), decide (p.evacPolicy = q.evacPolicy),
     decide (p.askWindow = q.askWindow), decide (p.musterDeadline = q.musterDeadline),
     decide (p.patEvacuate = q.patEvacuate), decide (p.patDrill = q.patDrill), decide (p.patTrip = q.patTrip),
     decide (p.patAlarm = q.patAlarm), decide (p.patWarn = q.patWarn), decide (p.patFault = q.patFault)]
  bits.foldr (fun same n => 2 * n + (!same).toNat) 0

/-- A new poll period: the next expiry is the last one plus the new period, taken at once where it has passed (R29). -/
def State.takePeriod (s : State) (period : Nat) : State :=
  if s.supply.policy.pollPeriod = period then s
  else
    let s1 : State := { s with supply.policy.pollPeriod := period }
    if s1.due s1.loop.roundAt period then
      ({ s1 with loop.roundAt := s1.now - BitVec.ofNat 48 period } : State).roundExpiry
    else s1

/-- The ceiling clamp on one CH4 channel, with its level evaluated with the new thresholds (R53, R65). -/
def Cell.clamped (x : Cell) (ceiling : Nat) : Cell :=
  let c := { x.chan with l1 := min x.chan.l1 ceiling, l2 := min x.chan.l2 ceiling, l3 := ceiling }
  { x with
    chan :=
      { c with
        level := match c.mean with
          | some m => if c.state.healthy then c.evaluate c.level m c.v else c.level
          | none => c.level } }

/-- A new trip ceiling: where it is lower, every CH4 channel in use is clamped (R53), in ascending index. DESIGN CHOICE, log entry
64. -/
def State.takeCeiling (s : State) (ceiling : Nat) : State :=
  let lowered := decide (ceiling < s.supply.policy.tripCeiling)
  let s1 : State := { s with supply.policy.tripCeiling := ceiling }
  if lowered then
    forEach (keysOf s1.air.channels)
      (fun i s => match s.channel? i with
        | some c =>
          if c.kind = .ch4 ∧ ceiling < c.l3 then s.changeChannel i fun x => x.clamped ceiling else s
        | none => s) s1
  else s1

/-- Some lost timer has run out (R112, R128). -/
def State.lostDue (s : State) : Bool :=
  (s.people.roster.any fun p => s.minerOverdue p.2) || s.haul.vehicles.any fun p => s.vehicleOverdue p.2

/-- Every lost timer that has run out expires, in ascending index, the miners' first: each expiry is an event of its own (R112,
R128). DEDUCED, log entry 40. -/
def State.expireLost (s : State) : State :=
  let each (f : State → State) (s : State) : State := if s.active then (f s).finish else s
  let s1 := forEach (keysOf s.people.roster) (fun i s => each (fun s => s.minerLost i) s) s
  forEach s1.vehicleIds (fun i s => each (fun s => s.vehicleLost i) s) s1

/-- A new lost time: timers whose new expiry has passed expire at once (R112, R128). -/
def State.takeLostTime (s : State) (lost : Nat) : State :=
  if s.supply.policy.lostTime = lost then s
  else
    let s1 : State := { s with supply.policy.lostTime := lost }
    if s1.lostDue then s1.amid State.expireLost else s1

/-- A new onboard limit: every vehicle's onboard component is judged again, in ascending index (R129). -/
def State.takeOnboardLimit (s : State) (limit : Nat) : State :=
  if s.supply.policy.onboardLimit = limit then s
  else ({ s with supply.policy.onboardLimit := limit } : State).refreshVehicles

/-- A new condition map: every zone's choice is judged, in ascending number, and the district play where its pattern changes
(R168, R171). -/
def State.takeMap (s : State) (q : Policy) : State :=
  let p := s.supply.policy
  if p.patEvacuate = q.patEvacuate ∧ p.patDrill = q.patDrill ∧ p.patTrip = q.patTrip ∧ p.patAlarm = q.patAlarm
      ∧ p.patWarn = q.patWarn ∧ p.patFault = q.patFault then s
  else ({ s with supply.policy := q } : State).judgeAllChoices.judgePlay

/-- The fields handed to their blocks in table order, and POLICY_SET (R180). DEDUCED, log entry 37. Where the end of a page at
an expiry leads to HALTED, the rest does not happen. -/
def State.takePolicy (s : State) (q : Policy) : State :=
  let mask := s.supply.policy.changes q
  let s1 := (s.takePeriod q.pollPeriod).takeCeiling q.tripCeiling
  let s2 := ({ s1 with supply.policy.blindGrace := q.blindGrace } : State).takeLostTime q.lostTime
  if s2.active then
    let s3 := s2.takeOnboardLimit q.onboardLimit
    let s4 : State :=
      { s3 with
        supply.policy :=
          { s3.supply.policy with
            zeroTolerance := q.zeroTolerance, evacPolicy := q.evacPolicy, askWindow := q.askWindow
            musterDeadline := q.musterDeadline } }
    (s4.takeMap q).appendIf (!decide (mask = 0)) 0xA5 clsDistrict 0 mask 0
  else s2

/-- SET POLICY (R180). -/
def policyOrder (a : PolicyArgs) : OrderSpec :=
  { code := 0x01, target := none, checkOk := true, inSetup := true, bad := policyBad a
    own := fun s =>
      let q := s.supply.policy.taken a
      .ends .ok 0 (leBytes 2 (s.supply.policy.changes q)) (s.takePolicy q) }

/-! ### START DISTRICT (R178) -/

/-- A failed check: its number, the item as two bytes, and the byte after it. -/
abbrev SetupFault := Nat × Nat × Nat

/-- Check 1: a neighbour that is not in use or does not list the zone. -/
def State.checkNeighbours (s : State) : Option SetupFault :=
  s.zonesInUse.findSome? fun z =>
    ((s.zoneRec z).neighbours.find? fun b => !((s.zoneRec b).inUse && (s.zoneRec b).neighbours.contains z)).map fun b =>
      (1, z, b)

/-- Check 2: a channel that is not attached. -/
def State.checkAttached (s : State) : Option SetupFault :=
  (s.air.channels.find? fun p => !s.attached p.2).map fun p => (2, p.1, 0)

/-- Check 3: the lowest powered zone that no CH4 channel names. DESIGN CHOICE, log entry 72. -/
def State.checkMethane (s : State) : Option SetupFault :=
  (s.zonesInUse.find? fun z =>
    (s.zoneRec z).powered && !((s.zoneChannels z).any fun c => decide (c.kind = .ch4))).map fun z => (3, z, 0)

/-- A configured head of a kind. -/
def State.isKind (s : State) (a : Nat) (k : HeadKind) : Bool := (s.head a).configured && decide ((s.head a).kind = k)

/-- The first head a zone names that is not as its list calls for. -/
def State.badHeadOf (s : State) (r : Zone) : Option Nat :=
  ((r.readers.find? fun a => !s.isKind a .reader).orElse fun _ => r.sounders.find? fun a => !s.isKind a .sounder).orElse
    fun _ => (r.relays.find? fun c => !(s.isKind c.1 .relay && decide (c.2 < (s.head c.1).count))).map Prod.fst

/-- Check 4: a head or circuit a zone names that is not configured as its list calls for. -/
def State.checkHeads (s : State) : Option SetupFault :=
  s.zonesInUse.findSome? fun z => (s.badHeadOf (s.zoneRec z)).map fun a => (4, z, a)

/-- Check 5: the lowest refuge without its panel or its zone. DESIGN CHOICE, log entry 72. -/
def State.checkPanels (s : State) : Option SetupFault :=
  (s.route.refuges.find? fun p =>
    !(s.isKind p.2.panel .refuge && (s.zoneRec p.2.zone).inUse && decide ((s.zoneRec p.2.zone).kind = .refuge))).map
    fun p => (5, p.1, 0)

/-- Check 6: the lowest reader that no zone names. DESIGN CHOICE, log entry 72. -/
def State.checkReaders (s : State) : Option SetupFault :=
  (s.loop.heads.find? fun p => p.2.configured && decide (p.2.kind = .reader) && (s.readerZone p.1).isNone).map fun p =>
    (6, p.1, 0)

/-- Check 7: IN4 enabled without a zone in use. -/
def State.checkInput (s : State) : Option SetupFault :=
  let ok : Bool := match s.supply.in4Zone with
    | some z => (s.zoneRec z).inUse
    | none => false
  if s.supply.in4.enabled && !ok then some (7, s.supply.in4Zone.getD absent8, 0) else none

/-- A refuge's channel is in use, names its panel and is of the kind. -/
def State.refugeChannelOk (s : State) (i panel : Nat) (k : ChannelKind) : Bool :=
  match s.channel? i with
  | some c => decide (c.head = panel) && decide (c.kind = k)
  | none => false

/-- Check 8: a refuge's channels. -/
def State.checkChannels (s : State) : Option SetupFault :=
  (s.route.refuges.find? fun p =>
    !(s.refugeChannelOk p.2.o2 p.2.panel .o2 && s.refugeChannelOk p.2.co p.2.panel .co)).map fun p => (8, p.1, 0)

/-- The checks of START DISTRICT, in order (the table of R178). -/
def State.setupFault (s : State) : Option SetupFault :=
  [s.checkNeighbours, s.checkAttached, s.checkMethane, s.checkHeads, s.checkPanels, s.checkReaders, s.checkInput,
    s.checkChannels].findSome? id

/-- The resumption of a retained evacuation (R164). -/
def State.resume (s : State) : State :=
  if s.supply.retained.evacActive then
    (s.append 0x80 clsDistrict 0 (srcRetained * 256) 0).enterAlerting s.supply.retained.drill
  else s

/-- The triggers that stand at the entry to RUNNING, in the order of R154. DEDUCED, log entry 55. -/
def State.standing (s : State) : List EvacTask :=
  (if s.supply.in1.status then [EvacTask.pull clsDistrict 0] else [])
    ++ (s.evac.pulled.filter fun a => s.isKind a .sounder).map (EvacTask.pull clsHead)
    ++ (s.route.refuges.filter fun p => p.2.pulled).map (fun p => EvacTask.pull clsRefuge p.1)
    ++ (s.zonesInUse.filter fun z => (s.zoneRec z).evacGas).map EvacTask.gasRise

/-- The entry to RUNNING (R178): the phase, the retained trips and the zone evaluations, the recompute, the resumption, the
standing triggers, and the contacts. A rise of evac-gas in these evaluations is among the standing triggers.
DEDUCED, log entry 35. The retained trips are made in ascending zone number. DESIGN CHOICE, log entry 64. -/
def State.enterRunning (s : State) : State :=
  let s1 := (({ s with supply.phase := .running } : State).bumpSummary).append 0xA1 clsDistrict 0 Phase.setup.ctorIdx
    Phase.running.ctorIdx
  let s2 := (forEach s1.supply.retained.latches (fun z s => s.tripRetained z) s1).evalAllZones
  let rise : EvacTask → Bool
    | .gasRise _ => true
    | .pull _ _ | .gasFall _ | .muster _ _ _ => false
  let s3 := ({ s2 with work.evac := s2.work.evac.filter fun t => !rise t } : State).askRecompute.recomputeNow
  let s4 := s3.resume
  (s4.standing.foldl State.takeTask s4).judgeContacts

/-- START DISTRICT (R178). -/
def startOrder : OrderSpec :=
  { code := 0x0F, target := none, checkOk := true, inSetup := true, bad := none
    own := fun s =>
      if s.running then refuse .notNow 1 s
      else
        match s.setupFault with
        | some (n, item, extra) => .ends .badSetup n (leBytes 2 item ++ [BitVec.ofNat 8 extra]) s
        | none =>
          let r := s.supply.retained
          let s' := s.enterRunning
          .ends .ok 0
            ([BitVec.ofNat 8 s'.supply.retained.latches.length, BitVec.ofNat 8 r.evacActive.toNat] ++ leBytes 2 r.warmCount
              ++ [BitVec.ofNat 8 r.cause.ctorIdx]) s' }

/-! ### SET CLOCK (R176) -/

/-- The effects of SET CLOCK: the mine clock, the summary block's field, and CLOCK_SET stamped with the new value. -/
def State.setClock (s : State) (v : Nat) : State :=
  let c : Clock := BitVec.ofNat 48 v
  (({ s with supply.mineClock := c, port.shownMine := c } : State).bumpSummary).append 0xA4 clsDistrict 0
    (s.supply.mineClock.toNat / 2 ^ 32) (c.toNat / 2 ^ 32)

/-- SET CLOCK (R176). -/
def clockOrder (v : Nat) : OrderSpec :=
  { code := 0x60, target := none, checkOk := true, inSetup := true, bad := none
    own := fun s => .ends .ok 0 (leBytes 6 s.supply.mineClock.toNat) (s.setClock v) }

/-! ### The commands -/

/-- SET_POLICY (R180). -/
def execSetPolicy (slot : Nat) (a : PolicyArgs) (s : State) : Host.Outcome State Fault Refusal :=
  s.takeOrder slot (.setPolicy slot a) (policyOrder a)

/-- START_DISTRICT (R178). -/
def execStartDistrict (slot : Nat) (s : State) : Host.Outcome State Fault Refusal :=
  s.takeOrder slot (.startDistrict slot) startOrder

/-- SET_CLOCK (R176). -/
def execSetClock (slot value : Nat) (s : State) : Host.Outcome State Fault Refusal :=
  s.takeOrder slot (.setClock slot value) (clockOrder value)

end Sys2Proof.Machine
end

