-- ==== Sys2Proof/Machine/ServiceOrders.lean ====
section
/-! DEFINITION. The orders that act on a configured district: the long orders (R44, R47, R94, R98, R101, R116), calls, vehicles,
zones and the evacuation (R85, R115, R132, R147, R156, R161, R162), and CANCEL (R16). -/

namespace Sys2Proof.Machine

open Sys2Proof.Config

/-! ### ROLL CALL and ASSIGN ADDRESS (R44, R47) -/

/-- ROLL CALL (R44). Its in-flight entry shows 0 as the index of the LOOP target. DESIGN CHOICE, log entry 44. -/
def rollCallOrder : OrderSpec :=
  { code := codeRollCall, target := some (.loop, 0), checkOk := true, inSetup := true, bad := none
    own := fun _ => .enters fun s =>
      { s with loop.rollCall := some { automatic := false, begun := false, address := 1, tries := [] } } }

/-- ASSIGN ADDRESS (R47). Its in-flight entry shows 0 as the index of the LOOP target. DESIGN CHOICE, log entry 44. -/
def assignOrder (serial target : Nat) : OrderSpec :=
  { code := codeAssign, target := some (.loop, 0), checkOk := true, inSetup := true
    bad := firstBad [(8, inRange serial 1 maxSerial), (12, inRange target 1 63)]
    own := fun s =>
      let h := s.head target
      let held := match h.identified with
        | some n => !decide (n = serial)
        | none => false
      judgeChecks s [(decide (h.link = .online) && held, .busy, 0)] fun _ =>
        .enters fun s =>
          { s with loop.assignment := some { serial := serial, target := target, begun := false, rounds := 0 } } }

/-! ### CLEAR TRIP (R85) -/

/-- CLEAR TRIP (R85, R17). -/
def clearTripOrder (zone check : Nat) : OrderSpec :=
  { code := 0x20, target := none
    checkOk := decide (crc8 [0x20#8, BitVec.ofNat 8 zone] = BitVec.ofNat 8 check)
    inSetup := false, bad := firstBad [(8, inRange zone 0 31)]
    own := fun s =>
      let r := s.zoneRec zone
      let gas := (s.zoneChannels zone).any fun c => decide (c.kind = .ch4) && s.healthy c && decide (1 ≤ c.level)
      judgeChecks s
        [(!s.latched zone, .noTarget, 0), (!decide (s.evac.state = .quiet), .notNow, 1),
         (decide (r.cause = some .external) && s.supply.in4.status, .notNow, 2), (r.powered && !r.covered, .stillGas, 1),
         (gas, .stillGas, 2)]
        fun _ => .ends .ok 0 [] (s.evaluate zone { start := r, clear := true, expired := false }) }

/-! ### BUMP TEST, CALIBRATE and SELF CHECK (R92, R94, R98, R101) -/

/-- The refusal of the admission check: the zone, the kind and h (R92). -/
def admitted (s : State) (taken : List Nat) (effects : State → State) : Judged :=
  match s.admission taken with
  | some (z, k, h) => .ends .notNow 2 [BitVec.ofNat 8 z, BitVec.ofNat 8 k.ctorIdx, BitVec.ofNat 8 h] s
  | none => .enters effects

/-- A channel is in the state RECOVERY. -/
def Channel.recovering (c : Channel) : Bool := decide (c.state = .recovery)

/-- The channel is attached and its head ONLINE. -/
def State.linked (s : State) (c : Channel) : Bool := s.attached c && s.headOnline c.head

/-- The effects of an admitted BUMP TEST. -/
def State.beginBump (s : State) (i : Nat) (k : ChannelKind) (a b window : Nat) : State :=
  let rec' : BumpRec :=
    { a := a, b := b, start := s.now, length := window * 1000, timeAtA := none
      extreme := if k.rising then 0 else k.fullScale
      highest := 0 }
  ({ s with tests.bumps := storeAt s.tests.bumps i rec' } : State).moveChannel i (·.entering .bump)

/-- BUMP TEST (R94). -/
def bumpOrder (i a b window : Nat) : OrderSpec :=
  { code := codeBump, target := some (.channel, i), checkOk := true, inSetup := false
    bad := firstBad [(8, inRange i 0 95), (9, inRange a 0 1500), (11, inRange b 0 1500), (13, inRange window 10 300)]
    own := fun s =>
      match s.channel? i with
      | none => refuse .noTarget 0 s
      | some c =>
        let fs := c.kind.fullScale
        let ordered := if c.kind.rising then decide (a < b) else decide (b < a)
        judgeChecks s
          [(decide (fs < a), .badArgument, 9), (decide (fs < b), .badArgument, 11), (!ordered, .badArgument, 11),
           (!s.linked c, .linkLost, 0), (!c.state.healthy, .notNow, 1)]
          fun _ => admitted s [i] fun s => s.beginBump i c.kind a b window }

/-- The effects of an admitted CALIBRATE. -/
def State.beginCal (s : State) (i mode gas : Nat) : State :=
  ({ s with tests.cals := storeAt s.tests.cals i { span := decide (mode = 1), gas := gas, samples := [] } } : State).moveChannel
    i (·.entering .cal)

/-- CALIBRATE (R98): G is checked for SPAN alone. DEDUCED, log entry 38. -/
def calOrder (i mode gas : Nat) : OrderSpec :=
  { code := codeCalibrate, target := some (.channel, i), checkOk := true, inSetup := false
    bad := firstBad [(8, inRange i 0 95), (9, inRange mode 0 1), (10, decide (mode = 0) || inRange gas 1 1500)]
    own := fun s =>
      match s.channel? i with
      | none => refuse .noTarget 0 s
      | some c =>
        judgeChecks s
          [(decide (mode = 1) && decide (c.kind.fullScale < gas), .badArgument, 10), (!s.linked c, .linkLost, 0),
           (c.recovering, .notNow, 1)]
          fun _ => admitted s [i] fun s => s.beginCal i mode gas }

/-- The channels in use attached to a head (R54). -/
def State.attachedTo (s : State) (a : Nat) : List Nat :=
  (s.air.channels.filter fun p => decide (p.2.head = a) && s.attached p.2).map Prod.fst

/-- The effects of an admitted SELF CHECK (R101): the channels enter SELFCHECK in ascending index. DESIGN CHOICE, log entry 54. -/
def State.beginCheck (s : State) (a skip : Nat) (taken : List Nat) : State :=
  forEach taken (fun i s => s.moveChannel i (·.entering .selfcheck))
    { s with tests.checks := storeAt s.tests.checks a { skip := skip, primed := false, step := none, timer := none, values := [] } }

/-- SELF CHECK (R101). -/
def checkOrder (a skip : Nat) : OrderSpec :=
  { code := codeSelfCheck, target := some (.head, a), checkOk := true, inSetup := false
    bad := firstBad [(8, inRange a 1 63), (9, inRange skip 0 15)]
    own := fun s =>
      let taken := s.attachedTo a
      let recovering := taken.any fun i => ((s.channel? i).map Channel.recovering).getD false
      judgeChecks s
        [(!s.isKind a .gas, .noTarget, 0), (!s.headOnline a, .linkLost, 0), (recovering, .notNow, 1)]
        fun _ =>
          if skip = 15 then
            .ends .ok 0 (List.replicate 8 0xFF#8) (s.append 0x40 clsHead a (codeSelfCheck * 256) 0)
          else admitted s taken fun s => s.beginCheck a skip taken }

/-! ### PAGE and ANSWER CALL (R115, R116) -/

/-- The effects of an accepted PAGE. -/
def State.beginPage (s : State) (i message ack timeout : Nat) : State :=
  match s.miner? i with
  | none => s
  | some m =>
    let take := s.orders.takes
    let seconds := if timeout = 0 then pageDefaultTimeout else timeout
    let p : PageRec :=
      { take := take, message := message, ack := decide (ack = 1), start := s.now, length := seconds * 1000
        deliveries := 0, reader := none }
    let s1 := ({ s with people.pages := storeAt s.people.pages i p } : State).putMiner i
      { m with pageTake := some take.toNat, pageCode := some message, pageAck := some (decide (ack = 1)) }
    (s1.raiseOnce .tagState i).assertCond (.miner i) .page message ack absent8

/-- PAGE (R116). -/
def pageOrder (i message ack timeout : Nat) : OrderSpec :=
  { code := codePage, target := some (.roster, i), checkOk := true, inSetup := false
    bad := firstBad
      [(8, inRange i 0 255), (9, inRange message 0 63), (10, inRange ack 0 1),
       (11, decide (timeout = 0) || inRange timeout 30 900)]
    own := fun s =>
      match s.miner? i with
      | none => refuse .noTarget 0 s
      | some m =>
        judgeChecks s [(decide (m.state = .unseen) || decide (m.state = .out), .noTarget, 0)] fun _ =>
          .enters fun s => s.beginPage i message ack timeout }

/-- The effects of an accepted ANSWER CALL. -/
def State.answerCall (s : State) (i answer : Nat) (m : Miner) (c : CallCode) : State :=
  let s1 := s.putMiner i { m with call := none, callTime := none }
  ((s1.assertCond (.miner i) .callAnswer answer absent8 absent8).raise .call).append 0x53 clsRoster i answer c.line

/-- ANSWER CALL (R115). -/
def answerOrder (i answer : Nat) : OrderSpec :=
  { code := 0x31, target := none, checkOk := true, inSetup := false
    bad := firstBad [(8, inRange i 0 255), (9, inRange answer 0 63)]
    own := fun s =>
      match s.miner? i with
      | none => refuse .noTarget 1 s
      | some m =>
        match m.call with
        | none => refuse .noTarget 2 s
        | some c => .ends .ok 0 [BitVec.ofNat 8 c.line] (s.answerCall i answer m c) }

/-! ### COMMAND VEHICLE (R132) -/

/-- The effects of COMMAND VEHICLE. -/
def State.commandVehicle (s : State) (i : Nat) (v : Vehicle) (c : Command) : State :=
  let w := s.dressVehicle i { v with host := c }
  State.settleVehicles s (s.putVehicle i w) [i] [] id

/-- COMMAND VEHICLE (R132). -/
def commandOrder (i command : Nat) : OrderSpec :=
  { code := 0x32, target := none, checkOk := true, inSetup := false
    bad := firstBad [(8, inRange i 0 23), (9, inRange command 0 3)]
    own := fun s =>
      match s.vehicle? i with
      | none => refuse .noTarget 0 s
      | some v =>
        let s' := s.commandVehicle i v (Command.ofCode command)
        let w := (s'.vehicle? i).getD v
        .ends .ok 0 [BitVec.ofNat 8 w.effective.ctorIdx, BitVec.ofNat 8 w.acked.ctorIdx] s' }

/-! ### BLOCK ZONE and OPEN ZONE (R147) -/

/-- The BLOCKED flag of a zone as an order sets it, with the evaluation, the event and the recompute. -/
def State.setBlocked (s : State) (z : Nat) (b : Bool) : State :=
  let r := s.zoneRec z
  let s1 := s.evaluate z { start := { r with blocked := b }, clear := false, expired := false }
  let s2 := s1.appendIf (!decide (r.blocked = b)) (if b then 0x74 else 0x75) clsZone z b.toNat
    (s1.zoneRec z).passable.toNat
  s2.askRecompute

/-- The judgement of BLOCK ZONE and OPEN ZONE. -/
def judgeBlocked (z : Nat) (b : Bool) (s : State) : Judged :=
  if (s.zoneRec z).inUse then
    let s' := s.setBlocked z b
    let r := s'.zoneRec z
    .ends .ok 0 [BitVec.ofNat 8 r.passable.toNat, BitVec.ofNat 8 r.evacGas.toNat] s'
  else refuse .noTarget 0 s

/-- BLOCK ZONE (R147). -/
def blockOrder (z : Nat) : OrderSpec :=
  { code := 0x40, target := none, checkOk := true, inSetup := true, bad := firstBad [(8, inRange z 0 31)]
    own := judgeBlocked z true }

/-- OPEN ZONE (R147). -/
def openOrder (z : Nat) : OrderSpec :=
  { code := 0x41, target := none, checkOk := true, inSetup := true, bad := firstBad [(8, inRange z 0 31)]
    own := judgeBlocked z false }

/-! ### Orders of the evacuation (R156, R161, R162) -/

/-- START EVACUATION (R156). -/
def startEvacOrder (drill reason : Nat) : OrderSpec :=
  { code := 0x50, target := none, checkOk := true, inSetup := false
    bad := firstBad [(8, inRange drill 0 1), (9, inRange reason 0 255)]
    own := fun s =>
      if s.evac.state.mustering? then refuse .busy 0 s
      else
        let asking := decide (s.evac.state = .asking)
        let d := decide (drill = 1) && !asking
        .ends .ok 0 [BitVec.ofNat 8 d.toNat]
          ((s.append 0x80 clsDistrict 0 (srcHost * 256 + reason) (if asking then 2 else 0)).enterAlerting d) }

/-- The effects of an accepted DECLINE EVACUATION (R156). The time in ASKING in whole seconds: DESIGN CHOICE, log entry 70. -/
def State.decline (s0 : State) (z : Nat) : State :=
  let s1 : State :=
    { s0 with
      evac :=
        { s0.evac with
          state := .quiet, askingZone := none, askTimer := none, declined := insertNat s0.evac.declined z } }
  let s2 := State.logEvacState s0 (s1.bumpSummary.giveFlags.raiseOnce .evacuation 0)
  (s2.append 0x85 clsZone z (min 65535 (elapsed s0.now s0.evac.askedAt / 1000)) 0).freeOut

/-- DECLINE EVACUATION (R156, R17). -/
def declineOrder (check : Nat) : OrderSpec :=
  { code := 0x51, target := none, checkOk := decide (crc8 [0x51#8] = BitVec.ofNat 8 check), inSetup := false, bad := none
    own := fun s =>
      match s.evac.state with
      | .asking =>
        let z := s.evac.askingZone.getD 0
        .ends .ok 0 [BitVec.ofNat 8 z] (s.decline z)
      | .quiet | .alerting | .mustering | .accounted | .overdue => refuse .notNow 0 s }

/-- The lowest zone in use whose evac-gas flag is set. -/
def State.gasZone (s : State) : Option Nat := s.zonesInUse.find? fun z => (s.zoneRec z).evacGas

/-- An entry's muster fields at the stand down (R162, step 3). -/
def Miner.stoodDown (m : Miner) : Miner := { m with muster := .notRequired, accounted := false, assist := false }

/-- The IN1 latch is cleared at the request of STAND DOWN; the status falls, is logged and is handed to nobody (R174).
DEDUCED, log entry 39. -/
def State.clearPull (s : State) : State :=
  let i := s.supply.in1
  let i1 := { i with latch := false }
  let i2 := { i1 with status := i1.formed 1 }
  if i.status = i2.status then { s with supply.in1 := i2 }
  else (({ s with supply.in1 := i2 } : State).bumpSummary).append 0xA3 clsDistrict 1 i2.status.toNat i2.raw.toNat

/-- The effects of an accepted STAND DOWN, step by step (R162); the conditions of step 2 end in ascending index. DESIGN CHOICE, log
entry 64. -/
def State.standDown (s0 : State) : State :=
  let s1 : State :=
    { s0 with
      evac := { s0.evac with askTimer := none, deadline := none, deadlinePassed := false, askingZone := none } }
  let s2 := forEach (keysOf s1.people.roster) (fun i s => s.endCond (.miner i) .evacuate) s1
  let s3 := forEach (keysOf s2.people.roster)
    (fun i s => match s.miner? i with
      | some m => s.putMuster i m.stoodDown
      | none => s) s2
  let s4 :=
    ({ s3 with
      evac := { s3.evac with required := 0, safe := 0, unaccounted := 0, assist := 0, state := .quiet, drill := false }
      supply.retained.evacActive := false
      supply.retained.drill := false } : State).bumpSummary
  let s5 := s4.giveFlags.clearPull.freeOut
  State.logEvacState s0 (s5.raiseOnce .evacuation 0)

/-- STAND DOWN (R162, R17). -/
def standDownOrder (check : Nat) : OrderSpec :=
  { code := 0x52, target := none, checkOk := decide (crc8 [0x52#8] = BitVec.ofNat 8 check), inSetup := false, bad := none
    own := fun s =>
      match s.evac.state with
      | .quiet => refuse .notNow 1 s
      | .asking | .alerting | .mustering | .accounted | .overdue =>
        match (if s.evac.drill then none else s.gasZone) with
        | some z => .ends .notNow 2 [BitVec.ofNat 8 z] s
        | none =>
          .ends .ok 0 (BitVec.ofNat 8 s.evac.state.ctorIdx :: leBytes 2 s.evac.unaccounted) s.standDown }

/-- The effects of an accepted MARK ACCOUNTED (R161). -/
def State.markAccounted (s0 : State) (i : Nat) (m : Miner) : State :=
  let s1 := (s0.putMuster i { m with muster := .safe, accounted := true }).endCond (.miner i) .evacuate
  let s2 := s1.formCounts.judgeMuster
  (State.logEvacState s0 (s2.raiseOnce .evacuation 0)).append 0x87 clsRoster i s2.evac.unaccounted 0

/-- MARK ACCOUNTED (R161). -/
def markOrder (i : Nat) : OrderSpec :=
  { code := 0x53, target := none, checkOk := true, inSetup := false, bad := firstBad [(8, inRange i 0 255)]
    own := fun s =>
      match s.miner? i with
      | none => refuse .noTarget 0 s
      | some m =>
        if m.muster = .required then
          let s' := s.markAccounted i m
          .ends .ok 0 (leBytes 2 s'.evac.unaccounted) s'
        else refuse .noTarget 0 s }

/-! ### CANCEL (R16) -/

/-- The owning block ends its order CANCELLED and reports the end. -/
def State.cancelEntry (s : State) (e : InFlight) : State :=
  if e.code = codeBump then s.cancelTest (.bump e.index)
  else if e.code = codeCalibrate then s.cancelTest (.cal e.index)
  else if e.code = codeSelfCheck then s.cancelTest (.check e.index)
  else if e.code = codePage then s.endPage e.index .cancelled
  else if e.code = codeRollCall then
    match s.loop.rollCall with
    | some rc => s.endRollCall rc .cancelled
    | none => s
  else ({ s with loop.assignment := none } : State).endOrder codeAssign .loop 0 .cancelled 0 []

/-- The in-flight entry a CANCEL of a slot ends: the slot is TAKEN and an entry holds it with the slot's take number. -/
def State.cancelTarget (s : State) (t : Nat) : Option InFlight :=
  if s.handOver t = handTaken then
    s.orders.inFlight.find? fun e => decide (e.slot = t) && decide (e.take = s.slotTake t)
  else none

/-- A check bit that does not match among the bytes a CANCEL reads of the slot it names: the hand-over, and the take number of
a TAKEN slot (R6). DESIGN CHOICE, log entry 16. -/
def State.cancelReadBad (s : State) (t : Nat) : Bool :=
  s.port.badBytes.contains (slotAddr t 0)
    || (decide (s.handOver t = handTaken)
      && (s.port.badBytes.contains (slotAddr t 2) || s.port.badBytes.contains (slotAddr t 3)))

/-- CANCEL (R16): what it reads of the named slot may lead to HALTED, and nothing is written then. -/
def cancelOrder (target : Nat) : OrderSpec :=
  { code := 0x61, target := none, checkOk := true, inSetup := true, bad := firstBad [(8, inRange target 0 31)]
    own := fun s =>
      if s.cancelReadBad target then .ends .tooLate 0 [] (s.halt .exchangeFault)
      else
        match s.cancelTarget target with
        | some e => .ends .ok 0 (leBytes 2 e.take.toNat) (s.cancelEntry e)
        | none => refuse .tooLate 0 s }

/-! ### The commands -/

/-- ROLL_CALL (R44). -/
def execRollCall (slot : Nat) (s : State) : Host.Outcome State Fault Refusal :=
  s.takeOrder slot (.rollCall slot) rollCallOrder

/-- ASSIGN_ADDRESS (R47). -/
def execAssignAddress (slot serial target : Nat) (s : State) : Host.Outcome State Fault Refusal :=
  s.takeOrder slot (.assignAddress slot serial target) (assignOrder serial target)

/-- CLEAR_TRIP (R85). -/
def execClearTrip (slot zone check : Nat) (s : State) : Host.Outcome State Fault Refusal :=
  s.takeOrder slot (.clearTrip slot zone check) (clearTripOrder zone check)

/-- BUMP_TEST (R94). -/
def execBumpTest (slot channel a b window : Nat) (s : State) : Host.Outcome State Fault Refusal :=
  s.takeOrder slot (.bumpTest slot channel a b window) (bumpOrder channel a b window)

/-- SELF_CHECK (R101). -/
def execSelfCheck (slot head skip : Nat) (s : State) : Host.Outcome State Fault Refusal :=
  s.takeOrder slot (.selfCheck slot head skip) (checkOrder head skip)

/-- CALIBRATE (R98). -/
def execCalibrate (slot channel mode gas : Nat) (s : State) : Host.Outcome State Fault Refusal :=
  s.takeOrder slot (.calibrate slot channel mode gas) (calOrder channel mode gas)

/-- PAGE (R116). -/
def execPage (slot entry message ack timeout : Nat) (s : State) : Host.Outcome State Fault Refusal :=
  s.takeOrder slot (.page slot entry message ack timeout) (pageOrder entry message ack timeout)

/-- ANSWER_CALL (R115). -/
def execAnswerCall (slot entry answer : Nat) (s : State) : Host.Outcome State Fault Refusal :=
  s.takeOrder slot (.answerCall slot entry answer) (answerOrder entry answer)

/-- COMMAND_VEHICLE (R132). -/
def execCommandVehicle (slot vehicle command : Nat) (s : State) : Host.Outcome State Fault Refusal :=
  s.takeOrder slot (.commandVehicle slot vehicle command) (commandOrder vehicle command)

/-- BLOCK_ZONE (R147). -/
def execBlockZone (slot zone : Nat) (s : State) : Host.Outcome State Fault Refusal :=
  s.takeOrder slot (.blockZone slot zone) (blockOrder zone)

/-- OPEN_ZONE (R147). -/
def execOpenZone (slot zone : Nat) (s : State) : Host.Outcome State Fault Refusal :=
  s.takeOrder slot (.openZone slot zone) (openOrder zone)

/-- START_EVACUATION (R156). -/
def execStartEvacuation (slot drill reason : Nat) (s : State) : Host.Outcome State Fault Refusal :=
  s.takeOrder slot (.startEvacuation slot drill reason) (startEvacOrder drill reason)

/-- DECLINE_EVACUATION (R156). -/
def execDeclineEvacuation (slot check : Nat) (s : State) : Host.Outcome State Fault Refusal :=
  s.takeOrder slot (.declineEvacuation slot check) (declineOrder check)

/-- STAND_DOWN (R162). -/
def execStandDown (slot check : Nat) (s : State) : Host.Outcome State Fault Refusal :=
  s.takeOrder slot (.standDown slot check) (standDownOrder check)

/-- MARK_ACCOUNTED (R161). -/
def execMarkAccounted (slot entry : Nat) (s : State) : Host.Outcome State Fault Refusal :=
  s.takeOrder slot (.markAccounted slot entry) (markOrder entry)

/-- CANCEL (R16). -/
def execCancel (slot target : Nat) (s : State) : Host.Outcome State Fault Refusal :=
  s.takeOrder slot (.cancel slot target) (cancelOrder target)

end Sys2Proof.Machine
end

