-- ==== Sys2Proof/Machine/Scan.lean ====
section
/-! DEFINITION. The visit of the board scan: what the Order Unit knows of each order of the catalogue, and SCAN_VISIT (R10 to
R12). -/

namespace Sys2Proof.Machine

open Sys2Proof.Config

/-- The order a command stands for; none for a command that is no order of the catalogue (Table 1-6). -/
def specOf : Instr → Option OrderSpec
  | .setPolicy _ a => some (policyOrder a)
  | .setHead _ a => some (headOrder a)
  | .retireHead _ a => some (retireOrder a)
  | .setChannel _ a => some (channelOrder a)
  | .setZone _ a => some (zoneOrder a)
  | .setRefuge _ a => some (refugeOrder a)
  | .setRosterEntry _ i op tag person => some (rosterOrder i op tag person)
  | .setVehicle _ a => some (vehicleOrder a)
  | .setPattern _ a => some (patternOrder a)
  | .setInput _ a => some (inputOrder a)
  | .startDistrict _ => some startOrder
  | .rollCall _ => some rollCallOrder
  | .assignAddress _ serial target => some (assignOrder serial target)
  | .clearTrip _ zone check => some (clearTripOrder zone check)
  | .bumpTest _ i a b window => some (bumpOrder i a b window)
  | .selfCheck _ a skip => some (checkOrder a skip)
  | .calibrate _ i mode gas => some (calOrder i mode gas)
  | .page _ i message ack timeout => some (pageOrder i message ack timeout)
  | .answerCall _ i answer => some (answerOrder i answer)
  | .commandVehicle _ i command => some (commandOrder i command)
  | .blockZone _ z => some (blockOrder z)
  | .openZone _ z => some (openOrder z)
  | .startEvacuation _ drill reason => some (startEvacOrder drill reason)
  | .declineEvacuation _ check => some (declineOrder check)
  | .standDown _ check => some (standDownOrder check)
  | .markAccounted _ i => some (markOrder i)
  | .setClock _ v => some (clockOrder v)
  | .cancel _ t => some (cancelOrder t)
  | .hostMemoryRead _ | .hostMemoryWrite _ _ _ _ | .handOverWrite _ _ _ _ | .writtenCountRead | .takenCountWrite _ _ _ _
  | .noticeWrite _ _ _ | .noticeEnableWrite _ _ _ | .scan | .restart | .registerWrite _ _ _ _ | .coldReset
  | .inputPinChange _ _ | .enterSetup | .scanTimerExpiry | .scanVisit | .roundTimerExpiry | .pollSend | .identifySend
  | .assignSend | .responseWindowExpiry | .garbledReply | .gasReply _ | .readerReply _ | .relayReply _ | .refugeReply _
  | .sounderReply _ | .identifyReply _ | .roundEnd | .blindGraceExpiry _ | .bumpWindowExpiry _ | .stepTimerExpiry _
  | .recoveryExpiry _ | .pageTimeout _ | .lostTimerExpiry _ | .vehicleLostExpiry _ | .askWindowExpiry
  | .musterDeadlineExpiry | .playPhaseExpiry | .summaryClockRefresh | .replyBegun | .markerArrival _ => none

/-- The visit of the running scan's next slot (R10): the slot is taken where it can be, and passed over otherwise. -/
def State.visitSlot (s : State) : State :=
  if s.orders.scanRunning then
    let n := s.orders.next
    if s.slotReadBad n then s.halt .exchangeFault
    else if s.takeable n then
      match (s.decodeOrder n).bind specOf with
      | some o => s.visitTake n o
      | none => s.visitUnknown n
    else s.advanceScan
  else s

/-- SCAN_VISIT (R10). -/
def execScanVisit (s : State) : Host.Outcome State Fault Refusal := .next (s.event State.visitSlot)

end Sys2Proof.Machine
end

