-- ==== Sys2Proof/Machine/Dispatch.lean ====
section
/-! DEFINITION. The one arm of each command: a direct call of its meaning. -/

namespace Sys2Proof.Machine

def exec (i : Instr) (s : State) : Host.Outcome State Fault Refusal :=
  match i with
  | .hostMemoryRead addr => Sys2Proof.Machine.execHostMemoryRead addr s
  | .hostMemoryWrite addr data lo hi => Sys2Proof.Machine.execHostMemoryWrite addr data lo hi s
  | .handOverWrite slot data lo hi => Sys2Proof.Machine.execHandOverWrite slot data lo hi s
  | .writtenCountRead => Sys2Proof.Machine.execWrittenCountRead s
  | .takenCountWrite high data lo hi => Sys2Proof.Machine.execTakenCountWrite high data lo hi s
  | .noticeWrite data lo hi => Sys2Proof.Machine.execNoticeWrite data lo hi s
  | .noticeEnableWrite data lo hi => Sys2Proof.Machine.execNoticeEnableWrite data lo hi s
  | .scan => Sys2Proof.Machine.execScan s
  | .restart => Sys2Proof.Machine.execRestart s
  | .registerWrite addr data lo hi => Sys2Proof.Machine.execRegisterWrite addr data lo hi s
  | .coldReset => Sys2Proof.Machine.execColdReset s
  | .inputPinChange input level => Sys2Proof.Machine.execInputPinChange input level s
  | .enterSetup => Sys2Proof.Machine.execEnterSetup s
  | .scanTimerExpiry => Sys2Proof.Machine.execScanTimerExpiry s
  | .scanVisit => Sys2Proof.Machine.execScanVisit s
  | .setPolicy slot a => Sys2Proof.Machine.execSetPolicy slot a s
  | .setHead slot a => Sys2Proof.Machine.execSetHead slot a s
  | .retireHead slot address => Sys2Proof.Machine.execRetireHead slot address s
  | .setChannel slot a => Sys2Proof.Machine.execSetChannel slot a s
  | .setZone slot a => Sys2Proof.Machine.execSetZone slot a s
  | .setRefuge slot a => Sys2Proof.Machine.execSetRefuge slot a s
  | .setRosterEntry slot index op tag person => Sys2Proof.Machine.execSetRosterEntry slot index op tag person s
  | .setVehicle slot a => Sys2Proof.Machine.execSetVehicle slot a s
  | .setPattern slot a => Sys2Proof.Machine.execSetPattern slot a s
  | .setInput slot a => Sys2Proof.Machine.execSetInput slot a s
  | .startDistrict slot => Sys2Proof.Machine.execStartDistrict slot s
  | .rollCall slot => Sys2Proof.Machine.execRollCall slot s
  | .assignAddress slot serial target => Sys2Proof.Machine.execAssignAddress slot serial target s
  | .clearTrip slot zone check => Sys2Proof.Machine.execClearTrip slot zone check s
  | .bumpTest slot channel a b window => Sys2Proof.Machine.execBumpTest slot channel a b window s
  | .selfCheck slot head skip => Sys2Proof.Machine.execSelfCheck slot head skip s
  | .calibrate slot channel mode gas => Sys2Proof.Machine.execCalibrate slot channel mode gas s
  | .page slot entry message ack timeout => Sys2Proof.Machine.execPage slot entry message ack timeout s
  | .answerCall slot entry answer => Sys2Proof.Machine.execAnswerCall slot entry answer s
  | .commandVehicle slot vehicle command => Sys2Proof.Machine.execCommandVehicle slot vehicle command s
  | .blockZone slot zone => Sys2Proof.Machine.execBlockZone slot zone s
  | .openZone slot zone => Sys2Proof.Machine.execOpenZone slot zone s
  | .startEvacuation slot drill reason => Sys2Proof.Machine.execStartEvacuation slot drill reason s
  | .declineEvacuation slot check => Sys2Proof.Machine.execDeclineEvacuation slot check s
  | .standDown slot check => Sys2Proof.Machine.execStandDown slot check s
  | .markAccounted slot entry => Sys2Proof.Machine.execMarkAccounted slot entry s
  | .setClock slot value => Sys2Proof.Machine.execSetClock slot value s
  | .cancel slot target => Sys2Proof.Machine.execCancel slot target s
  | .roundTimerExpiry => Sys2Proof.Machine.execRoundTimerExpiry s
  | .pollSend => Sys2Proof.Machine.execPollSend s
  | .identifySend => Sys2Proof.Machine.execIdentifySend s
  | .assignSend => Sys2Proof.Machine.execAssignSend s
  | .responseWindowExpiry => Sys2Proof.Machine.execResponseWindowExpiry s
  | .garbledReply => Sys2Proof.Machine.execGarbledReply s
  | .gasReply r => Sys2Proof.Machine.execGasReply r s
  | .readerReply r => Sys2Proof.Machine.execReaderReply r s
  | .relayReply r => Sys2Proof.Machine.execRelayReply r s
  | .refugeReply r => Sys2Proof.Machine.execRefugeReply r s
  | .sounderReply r => Sys2Proof.Machine.execSounderReply r s
  | .identifyReply r => Sys2Proof.Machine.execIdentifyReply r s
  | .roundEnd => Sys2Proof.Machine.execRoundEnd s
  | .blindGraceExpiry zone => Sys2Proof.Machine.execBlindGraceExpiry zone s
  | .bumpWindowExpiry channel => Sys2Proof.Machine.execBumpWindowExpiry channel s
  | .stepTimerExpiry head => Sys2Proof.Machine.execStepTimerExpiry head s
  | .recoveryExpiry channel => Sys2Proof.Machine.execRecoveryExpiry channel s
  | .pageTimeout entry => Sys2Proof.Machine.execPageTimeout entry s
  | .lostTimerExpiry entry => Sys2Proof.Machine.execLostTimerExpiry entry s
  | .vehicleLostExpiry vehicle => Sys2Proof.Machine.execVehicleLostExpiry vehicle s
  | .askWindowExpiry => Sys2Proof.Machine.execAskWindowExpiry s
  | .musterDeadlineExpiry => Sys2Proof.Machine.execMusterDeadlineExpiry s
  | .playPhaseExpiry => Sys2Proof.Machine.execPlayPhaseExpiry s
  | .summaryClockRefresh => Sys2Proof.Machine.execSummaryClockRefresh s
  | .replyBegun => Sys2Proof.Machine.execReplyBegun s
  | .markerArrival good => Sys2Proof.Machine.execMarkerArrival good s

end Sys2Proof.Machine
end

