-- ==== Sys2Proof/Machine/Tick.lean ====
section
/-! DEFINITION. What the part does by itself when no command waits: its own scan and loop work, and the passing of one millisecond
with the expiries that fall due in it (R5, R10, R29, R30, R176). DESIGN CHOICE, log entry 1. -/

namespace Sys2Proof.Machine

open Sys2Proof.Config

/-- The command of the scan or of the loop that is ready now, if any: the running scan's next visit first, then the Loop
Controller's next work. -/
def State.ownWork (s : State) : Option Instr :=
  if !s.active then none
  else if s.orders.scanRunning then some .scanVisit
  else
    match s.nextWork with
    | .poll _ _ => some .pollSend
    | .identify _ _ => some .identifySend
    | .assign _ => some .assignSend
    | .roundEnd => some .roundEnd
    | .none => none

/-- A command, if its timer is due. -/
def whenDue (b : Bool) (i : Instr) : List Instr := if b then [i] else []

/-- The response window of the exchange in progress is due and would end the try (R24). -/
def State.windowDue (s : State) : Bool :=
  match s.loop.exchange with
  | none => false
  | some ex => s.due ex.sentAt responseWindow && !ex.begun

/-- A grace or ask window or deadline timer is due. -/
def State.graceDue (s : State) (g : Option Grace) : Bool :=
  match g with
  | some g => s.due g.start g.length
  | none => false

/-- The phase of the district play that is running has ended (R171). -/
def State.playDue (s : State) : Bool :=
  match s.alarm.play.pattern, s.alarm.play.stage with
  | some i, .on => s.due s.alarm.play.since ((s.pattern i).onTime * 10)
  | some i, .off => s.due s.alarm.play.since ((s.pattern i).offTime * 10)
  | _, _ => false

/-- The indices of a table's records with a property. -/
def keysWhere {α : Type} (t : Tbl α) (p : α → Bool) : List Nat := (t.filter fun x => p x.2).map Prod.fst

/-- The expiries of the units' timers that are due, unit by unit and in ascending index (95). -/
def State.dueUnits (s : State) : List Instr :=
  (keysWhere s.zone.grace fun g => s.due g.start g.length).map Instr.blindGraceExpiry
    ++ (keysWhere s.tests.bumps fun b => s.due b.start b.length).map Instr.bumpWindowExpiry
    ++ (keysWhere s.tests.checks fun c => c.step.isSome && (match c.timer with
        | some t => s.due t stepTime
        | none => false)).map Instr.stepTimerExpiry
    ++ (keysWhere s.tests.recoveries fun t => s.due t recoveryTime).map Instr.recoveryExpiry
    ++ (keysWhere s.people.pages fun p => s.due p.start p.length).map Instr.pageTimeout
    ++ (keysWhere s.people.roster s.minerOverdue).map Instr.lostTimerExpiry
    ++ (keysWhere s.haul.vehicles s.vehicleOverdue).map Instr.vehicleLostExpiry
    ++ whenDue (decide (s.evac.state = .asking) && s.graceDue s.evac.askTimer) .askWindowExpiry
    ++ whenDue (s.graceDue s.evac.deadline) .musterDeadlineExpiry

/-- The expiries that are due now. The play and the summary block's clocks run in HALTED too; in BOOT no timer runs. -/
def State.dueCommands (s : State) : List Instr :=
  match s.supply.phase with
  | .boot => []
  | .halted => whenDue (s.due s.port.refreshAt refreshPeriod) .summaryClockRefresh ++ whenDue s.playDue .playPhaseExpiry
  | .setup | .running =>
    whenDue (s.due s.port.refreshAt refreshPeriod) .summaryClockRefresh
      ++ whenDue (s.due s.orders.scanAt scanPeriod) .scanTimerExpiry
      ++ whenDue (s.due s.loop.roundAt s.supply.policy.pollPeriod) .roundTimerExpiry
      ++ whenDue s.windowDue .responseWindowExpiry
      ++ s.dueUnits
      ++ whenDue s.playDue .playPhaseExpiry

/-- One millisecond passes on both clocks (R176), in every phase. -/
def State.passTime (s : State) : State :=
  { s with supply.runTime := s.supply.runTime + 1#48, supply.mineClock := s.supply.mineClock + 1#48 }

/-- The step of an empty queue: the part's own work is put in the queue where some is ready; otherwise a millisecond passes and
the expiries due in it are put in the queue. DESIGN CHOICE, log entry 1. -/
def State.tick (s : State) : State :=
  match s.ownWork with
  | some i => { s with pending := [i] }
  | none => { s.passTime with pending := s.passTime.dueCommands }

end Sys2Proof.Machine
end

