-- ==== Sys2Proof/Safety.lean ====
section
/-! DEFINITION. What counts as a safe state: the properties that steps keep, and the parts of records that an event's hand-offs
leave alone, in the terms the statements use. -/

namespace Sys2Proof.Machine

open Sys2Proof.Config

/-- The order board's bytes are in canonical form. -/
def State.boardCanonical (s : State) : Prop := Memory.wf s.port.board = true

/-- NOTICE and NOTICE_ENABLE hold no bit but 6..0 (R7). -/
def State.noticeLegal (s : State) : Prop :=
  s.port.notice &&& ~~~groupMask = 0#16 ∧ s.port.enable &&& ~~~groupMask = 0#16

/-- The in-flight list holds at most 8 entries (R14). -/
def State.inFlightLegal (s : State) : Prop := s.orders.inFlight.length ≤ inFlightMax

/-- Nothing of a step's own work waits between steps. -/
def State.settled (s : State) : Prop := s.work = Work.none

/-- A zone's relay command is CLOSED only in RUNNING, in a powered zone in use whose trip latch is clear, which is not TRIPPED,
and which is COVERED or in BLIND_GRACE (R83). -/
def State.relaySafe (s : State) : Prop :=
  ∀ z, (s.zoneRec z).closed = true →
    s.running = true ∧ s.latched z = false ∧ (s.zoneRec z).trip ≠ .tripped ∧ (s.zoneRec z).powered = true ∧
    (s.zoneRec z).inUse = true ∧ ((s.zoneRec z).covered = true ∨ (s.zoneRec z).trip = .blindGrace)

/-- Every byte of a slot reads the same in two states. -/
def sameSlot (s t : State) (n : Nat) : Prop := ∀ off, off < slotSize → t.slotByte n off = s.slotByte n off

/-- The running scan's next visit takes an order from a slot: the scan is at the slot, the slot is POSTED and free of any
in-flight entry, its bytes spell the order, and no check bit is at fault (R6, R10, R11, R177). -/
structure Posted (s : State) (n : Nat) (i : Instr) : Prop where
  active : s.active = true
  sound : s.insideBad = false
  checks : s.port.badBytes = []
  canonical : s.boardCanonical
  settled : s.settled
  takeable : s.takeable n = true
  spells : s.decodeOrder n = some i

/-- A slot shows the end of the order taken from it: DONE, with the take number, result, qualifier and result values
(R11, R13). -/
structure Shows (s t : State) (n : Nat) (r : OrderResult) (q : Nat) (vals : List Byte) : Prop where
  done : t.handOver n = handDone
  take : t.slotTake n = s.orders.takes + 1#16
  result : t.slotByte n 4 = BitVec.ofNat 8 r.ctorIdx
  qualifier : t.slotByte n 5 = BitVec.ofNat 8 q
  values : (List.range 8).map (fun k => t.slotByte n (56 + k)) = resultBytes vals
  takes : t.orders.takes = s.orders.takes + 1#16
  position : t.orders.scanPos = n

/-- A long order taken from a slot is in flight: the slot TAKEN with result, qualifier and result values 0, and its entry the
last of the in-flight list (R11, R14). -/
structure InFlightNow (s t : State) (n code : Nat) (k : TargetKind) (i : Nat) : Prop where
  taken : t.handOver n = handTaken
  take : t.slotTake n = s.orders.takes + 1#16
  result : t.slotByte n 4 = 0#8 ∧ t.slotByte n 5 = 0#8
  values : ∀ j, j < 8 → t.slotByte n (56 + j) = 0#8
  entry : t.orders.inFlight =
    s.orders.inFlight ++ [{ slot := n, take := s.orders.takes + 1#16, code := code, target := k, index := i, start := s.now }]
  takes : t.orders.takes = s.orders.takes + 1#16
  position : t.orders.scanPos = n

/-- No test is in flight. -/
def State.noTests (s : State) : Prop := s.tests.bumps = [] ∧ s.tests.cals = [] ∧ s.tests.checks = []

/-- The configuration of a zone record, with its BLOCKED flag (R71). -/
def Zone.conf (r : Zone) : Zone :=
  { Zone.blank with
    inUse := r.inUse, kind := r.kind, powered := r.powered, vote := r.vote, neighbours := r.neighbours,
    readers := r.readers, relays := r.relays, sounders := r.sounders, blocked := r.blocked }

/-- The configuration of a channel record (R50). -/
def Channel.conf (c : Channel) : Channel :=
  { c with
    state := .normal, cause := none, lastRaw := none, v := 0, mean := none, level := 0, overRange := false, n := 0
    changed := 0 }

/-- A roster entry without its muster fields (R107). -/
def Miner.place (m : Miner) : Miner := { m with muster := .notRequired, accounted := false, assist := false }

/-- A vehicle entry without its judged fields: all of them but the host's command (R125). -/
def Vehicle.place (v : Vehicle) : Vehicle :=
  { v with
    zoneCmd := .none, encounterCmd := .none, evacCmd := .none, onboardCmd := .none, crowdedCmd := .none
    effective := .none, crowded := false, unacked := 0 }

/-- A refuge record without its judged fields (R141). -/
def Refuge.place (r : Refuge) : Refuge := { r with tagOcc := 0, usable := false, reasons := 0, mismatch := false }

/-- The state with everything blanked that a hand-off between units may change. -/
def State.steadyPart (s : State) : State :=
  { s with
    port.versions := [], port.causes := [], port.notice := 0, port.fullEpisode := false, port.log := [], port.written := 0
    loop.marks := []
    zone.zones := [], zone.grace := []
    people.roster := [], people.conditions := [], people.lists := [], people.tripped := []
    haul := { vehicles := [], encounters := [], tripped := [] }
    route := { refuges := [], escape := [], generation := 0 }
    evac := { Evac.reset with pulled := s.evac.pulled }
    alarm.choices := [], alarm.district := .normal, alarm.play := { pattern := none, stage := .stopped, cycles := 0, since := 0 }
    alarm.out3 := false, alarm.out4 := false
    supply.retained.latches := [], supply.retained.evacActive := false, supply.retained.drill := false
    work := { Work.none with ends := s.work.ends } }

/-- The state with everything blanked that finishing an event may change. -/
def State.keptPart (s : State) : State :=
  { s.steadyPart with
    port.board := [], orders.inFlight := [], air := { channels := [], windows := [] }
    tests := { bumps := [], cals := [], checks := [], recoveries := [] }
    work := Work.none }

/-- What an order's command leaves of a state beside the scan's own progress: all that no hand-off may change. -/
def State.outline (s : State) : State :=
  { s.keptPart with
    orders := { Orders.reset with scanAt := s.orders.scanAt } }

/-- `t` is `s` but for the end of an order in slot `n`: the slot, the progress of the scan and of the take counter, and the raise of
ORDER_ENDED with its group bit in NOTICE. -/
structure Untouched (s t : State) (n : Nat) : Prop where
  rest : t = { s with port.board := t.port.board, port.causes := t.port.causes, port.notice := t.port.notice, orders := t.orders }
  orders : t.orders.inFlight = s.orders.inFlight ∧ t.orders.scanAt = s.orders.scanAt
  ended : t.causeCount .orderEnded = s.causeCount .orderEnded + 1#16
  causes : ∀ c, c ≠ .orderEnded → t.causeCount c = s.causeCount c
  notice : t.port.notice = s.port.notice ||| BitVec.ofNat 16 (2 ^ Cause.orderEnded.group)
  slots : ∀ m, m ≠ n → sameSlot s t m

/-- One of an owner's checks: whether it fails, and the result, qualifier and result values that it then gives (R12, step 7). -/
abbrev Check := Bool × OrderResult × Nat × List Byte

/-- The order in slot `n`, with every argument in range, ends with what the first of its owner's checks that fails gives, and nothing
else changes (R12, R13). -/
def Refuses (n : Nat) (i : Instr) (s : State) (checks : List Check) : Prop :=
  Posted s n i → (specOf i).map (·.bad) = some none → ∀ r q vals,
    (checks.find? (·.1)).map (·.2) = some (r, q, vals) → ∃ t, exec i s = .next t ∧ Shows s t n r q vals ∧ Untouched s t n

/-- `t` is `u` but for the order in slot `n` and the news of the step: the slot, the progress of the scan and of the take counter,
the version counts, the causes with NOTICE, and the event log. -/
structure Spares (u t : State) (n : Nat) : Prop where
  rest : t = { u with port := t.port, orders := t.orders }
  port : t.port = { u.port with
    board := t.port.board, versions := t.port.versions, causes := t.port.causes, notice := t.port.notice
    fullEpisode := t.port.fullEpisode, log := t.port.log, written := t.port.written }
  orders : t.orders.inFlight = u.orders.inFlight ∧ t.orders.scanAt = u.orders.scanAt
  slots : ∀ m, m ≠ n → sameSlot u t m

/-- `t` is `u` but for what the hand-offs of an event and the end of the order in slot `n` may change: every configuration, every
tag's, vehicle's and refuge's place and every trip stand, and so does every other slot that no in-flight entry holds. Left open, for
the units judge it at hand-offs: the zones' judged fields and grace, latches that a trip sets, the evacuation machine with its counts,
muster fields, conditions and downlink lists, vehicle commands and encounters, the refuges' judged fields, the escape table, the
alarm choices, district play and contacts, tests that end for cover, channel levels and windows, version counts, causes and log. -/
structure Leaves (u t : State) (n : Nat) : Prop where
  still : t.outline = u.outline
  zones : ∀ z, (t.zoneRec z).conf = (u.zoneRec z).conf
  miners : ∀ i, (t.miner? i).map Miner.place = (u.miner? i).map Miner.place
  vehicles : ∀ i, (t.vehicle? i).map Vehicle.place = (u.vehicle? i).map Vehicle.place
  refuges : ∀ i, (t.refuge? i).map Refuge.place = (u.refuge? i).map Refuge.place
  channels : ∀ i, (t.channel? i).map Channel.conf = (u.channel? i).map Channel.conf
  tripped : ∀ z, (u.zoneRec z).trip = .tripped → (t.zoneRec z).trip = .tripped
  slots : ∀ m, m ≠ n → (∀ e ∈ u.orders.inFlight, e.slot ≠ m) → sameSlot u t m

/-- The tables from which records are taken out have rising indices. -/
structure State.tablesRising (s : State) : Prop where
  channels : risingFrom 0 s.air.channels = true
  roster : risingFrom 0 s.people.roster = true
  vehicles : risingFrom 0 s.haul.vehicles = true
  refuges : risingFrom 0 s.route.refuges = true
  pages : risingFrom 0 s.people.pages = true
  recoveries : risingFrom 0 s.tests.recoveries = true

/-- No two in-flight entries hold one slot or conflicting targets (R14), no two roster entries and no two vehicles one tag (R107,
R125), and no pair is listed twice (R136). -/
structure State.listsDistinct (s : State) : Prop where
  inFlight : s.orders.inFlight.Pairwise fun e f =>
    e.slot ≠ f.slot ∧
    ¬((e.target = f.target ∧ (e.index = f.index ∨ e.target = .loop)) ∨
      (e.target = .channel ∧ f.target = .head ∧ (s.channel? e.index).map (·.head) = some f.index) ∨
      (e.target = .head ∧ f.target = .channel ∧ (s.channel? f.index).map (·.head) = some e.index))
  roster : ∀ i j m k, s.miner? i = some m → s.miner? j = some k → m.tag = k.tag → i = j
  vehicles : ∀ i j v w, s.vehicle? i = some v → s.vehicle? j = some w → v.tag = w.tag → i = j
  pairs : s.haul.encounters.Pairwise fun e f => ¬(e.vehicle = f.vehicle ∧ e.miner = f.miner)

/-- The muster's books: required is safe and unaccounted together; in QUIET and ASKING every count is 0 and every entry is
NOT_REQUIRED without flags (R158); and a roster entry has an EVACUATE condition exactly while it is REQUIRED (R160). -/
structure State.musterSound (s : State) : Prop where
  total : s.evac.required = s.evac.safe + s.evac.unaccounted
  counts : s.evac.state = .quiet ∨ s.evac.state = .asking →
    s.evac.required = 0 ∧ s.evac.safe = 0 ∧ s.evac.unaccounted = 0 ∧ s.evac.assist = 0
  entries : s.evac.state = .quiet ∨ s.evac.state = .asking →
    ∀ i m, s.miner? i = some m → m.muster = .notRequired ∧ m.accounted = false ∧ m.assist = false
  evacuate : ∀ i, (s.condition? (.miner i) .evacuate).isSome = true ↔ (s.miner? i).map (·.muster) = some .required

/-- The commands that are events of the blocks in whatever state they come: at each the part reads the state held inside the blocks
(R177). -/
def isUnitEvent : Instr → Bool
  | .scan | .scanVisit | .roundTimerExpiry | .pollSend | .identifySend | .assignSend | .responseWindowExpiry | .garbledReply
  | .gasReply _ | .readerReply _ | .relayReply _ | .refugeReply _ | .sounderReply _ | .identifyReply _ | .roundEnd
  | .blindGraceExpiry _ | .bumpWindowExpiry _ | .stepTimerExpiry _ | .recoveryExpiry _ | .pageTimeout _ | .lostTimerExpiry _
  | .vehicleLostExpiry _ | .askWindowExpiry | .musterDeadlineExpiry | .playPhaseExpiry | .replyBegun | .markerArrival _ => true
  | .hostMemoryRead _ | .hostMemoryWrite _ _ _ _ | .handOverWrite _ _ _ _ | .writtenCountRead | .takenCountWrite _ _ _ _
  | .noticeWrite _ _ _ | .noticeEnableWrite _ _ _ | .restart | .registerWrite _ _ _ _ | .coldReset | .inputPinChange _ _
  | .enterSetup | .scanTimerExpiry | .summaryClockRefresh | .setPolicy _ _ | .setHead _ _ | .retireHead _ _ | .setChannel _ _
  | .setZone _ _ | .setRefuge _ _ | .setRosterEntry _ _ _ _ _ | .setVehicle _ _ | .setPattern _ _ | .setInput _ _
  | .startDistrict _ | .rollCall _ | .assignAddress _ _ _ | .clearTrip _ _ _ | .bumpTest _ _ _ _ _ | .selfCheck _ _ _
  | .calibrate _ _ _ _ | .page _ _ _ _ _ | .answerCall _ _ _ | .commandVehicle _ _ _ | .blockZone _ _ | .openZone _ _
  | .startEvacuation _ _ _ | .declineEvacuation _ _ | .standDown _ _ | .markAccounted _ _ | .setClock _ _ | .cancel _ _ => false

/-- What the entry to HALTED leaves (R6, R18, R29, R89, R173, R177): the phase with its fatal code, the scan ended, the exchange
abandoned, every relay command and both contacts open, the order board, the latches and the roster as they were. -/
structure HaltedWith (s t : State) (code : FatalCode) : Prop where
  phase : t.supply.phase = .halted
  fatal : t.supply.fatal = code
  scan : t.orders.scanRunning = false
  exchange : t.loop.exchange = none
  relays : ∀ z, (t.zoneRec z).closed = false
  contacts : t.alarm.out3 = false ∧ t.alarm.out4 = false
  board : t.port.board = s.port.board
  latches : ∀ z, t.latched z = s.latched z
  roster : t.people.roster = s.people.roster

/-- SETUP or RUNNING with no check bit at fault and no hand-off waiting: the state in which events of the blocks are made. -/
structure Awake (s : State) : Prop where
  active : s.active = true
  sound : s.insideBad = false
  checks : s.port.badBytes = []
  settled : s.settled

/-- Every evac-gas flag is what an evaluation of its zone would give now (R86). -/
def State.airCurrent (s : State) : Prop :=
  ∀ z, (s.zoneRec z).inUse = true → (s.withAggregates z (s.zoneRec z)).hasEvacGas = (s.zoneRec z).evacGas

/-- Cover to spare in every zone that the channels to be taken name: the relay command is OPEN and stays so, for the zone is not
powered or is TRIPPED, or the healthy channels of the kind that the taken ones leave still make min(V, configured), where the record
counts the channels as they stand (R75, R83, R92). -/
def State.coverSpare (s : State) (channels : List Nat) : Prop :=
  ∀ i ∈ channels, ∀ c, s.channel? i = some c → ∀ z, c.zone = some z →
    let r := s.zoneRec z
    let taken := (channels.filterMap s.channel?).filter fun d => decide (d.zone = some z ∧ d.kind = c.kind)
    (r.closed = false ∧ (r.powered = false ∨ r.trip = .tripped)) ∨
    (risingFrom 0 s.air.channels = true ∧ r.agg c.kind = s.aggregate z c.kind ∧
      min r.vote (r.agg c.kind).configured + (taken.filter s.healthy).length ≤ (r.agg c.kind).healthy)

/-- What the channels that name a head hold after the head has left ONLINE, while no test is in flight: NORMAL and SETTLING become
FAULT LINK with an empty window, a FAULT of WARMUP, SIGNAL or SENSOR takes the cause LINK, and every other state stays (R40, R57,
R66). -/
def ChannelsLeft (s t : State) (a : Nat) : Prop :=
  ∀ i c, s.channel? i = some c → c.head = a → ∃ d, t.channel? i = some d ∧
    ((c.state = .normal ∨ c.state = .settling) →
      d = { c with
        state := .fault, cause := some .link, mean := none, n := 0, level := 0, overRange := false, changed := s.stamp } ∧
      t.channelWindow i = []) ∧
    (c.state = .fault → t.channelWindow i = s.channelWindow i ∧
      d = if c.cause = some .warmup ∨ c.cause = some .signal ∨ c.cause = some .sensor then
        { c with cause := some .link, changed := s.stamp } else c) ∧
    ((c.state = .bump ∨ c.state = .recovery ∨ c.state = .cal ∨ c.state = .selfcheck) →
      d = c ∧ t.channelWindow i = s.channelWindow i)

/-- The four pattern bytes of a SOUNDER head by R169: on-time, off-time, duty with the zone's sequence bit in bit 7, and repeats, of
the choice of the zone in use whose sounder list names the head; all 0 for silence or where no zone does. -/
def State.givenBytes (s : State) (a : Nat) : Nat × Nat × Nat × Nat :=
  match s.zone.zones.find? fun z => z.2.inUse && z.2.sounders.contains a with
  | none => (0, 0, 0, 0)
  | some z =>
    match (s.choice z.1).pattern with
    | none => (0, 0, 0, 0)
    | some i =>
      let p := s.pattern i
      (p.onTime, p.offTime, p.duty + if (s.choice z.1).seq then 128 else 0, p.repeats)

/-- The marks for interposed polls after a change: those before it and, while the rates mode is RESERVE, every ONLINE SOUNDER head
whose bytes it changed (R33, R169). -/
def MarksFollow (s t : State) : Prop :=
  ∀ a, a ∈ t.loop.marks ↔ a ∈ s.loop.marks ∨
    (s.loop.rates = .reserve ∧ (s.head a).configured = true ∧ (s.head a).kind = .sounder ∧ (s.head a).link = .online ∧
      s.givenBytes a ≠ t.givenBytes a)

/-- The exchange in progress is a due POLL of a configured head of a kind, and a reply answers it (R24, R30, R35). -/
structure Answered (s : State) (ex : Exchange) (h : ReplyHead) (k : HeadKind) : Prop where
  exchange : s.loop.exchange = some ex
  poll : ex.frame.kind = .poll
  address : h.address = ex.frame.address
  toggle : h.toggle = ex.frame.toggle
  due : ex.purpose = .due
  kept : ex.abandoned = false
  configured : (s.head ex.frame.address).configured = true
  kind : (s.head ex.frame.address).kind = k
  link : (s.head ex.frame.address).link ≠ .clash ∧ (s.head ex.frame.address).link ≠ .unconfigured
  marker : ∀ r, s.loop.round = some r → r.markerOwed = false

/-- What a valid matching reply to a due POLL leaves of the head, the loop and everything else but the records its contents go to
(R35, R39, R40). -/
structure PollTaken (s t : State) (ex : Exchange) (h : ReplyHead) (k : HeadKind) : Prop where
  loop : t.loop = { s.loop with
    heads := t.loop.heads, inner := t.loop.inner, exchange := none, continuation := t.loop.continuation, round := t.loop.round
    marks := t.loop.marks }
  link : (t.head ex.frame.address).link = .online
  missed : (t.head ex.frame.address).missed = 0
  lastReply : (t.head ex.frame.address).lastReply = some s.stamp
  localFault : (t.head ex.frame.address).localFault = h.localFault
  others : ∀ b, b ≠ ex.frame.address → t.head b = s.head b
  zones : ∀ z, (t.zoneRec z).conf = (s.zoneRec z).conf
  slots : ∀ n, (∀ e ∈ s.orders.inFlight, e.slot ≠ n) → sameSlot s t n
  channels : k ≠ .gas → k ≠ .refuge → ∀ i, (t.channel? i).map Channel.conf = (s.channel? i).map Channel.conf
  miners : k ≠ .reader → ∀ i, (t.miner? i).map Miner.place = (s.miner? i).map Miner.place
  vehicles : k ≠ .reader → ∀ i, (t.vehicle? i).map Vehicle.place = (s.vehicle? i).map Vehicle.place
  pages : k ≠ .reader → t.people.pages = s.people.pages
  circuits : k ≠ .relay → t.zone.circuits = s.zone.circuits
  refuges : k ≠ .refuge → ∀ i, (t.refuge? i).map Refuge.place = (s.refuge? i).map Refuge.place
  pulled : k ≠ .sounder → t.evac.pulled = s.evac.pulled
  still : t.outline = ({ s with
    loop := t.loop, people.pages := t.people.pages, zone.circuits := t.zone.circuits, evac.pulled := t.evac.pulled } : State).outline

/-- A long order in flight whose slot still waits for its end (R14, R15). -/
structure Waiting (s : State) (e : InFlight) (code : Nat) (k : TargetKind) (i : Nat) : Prop where
  entry : s.inFlight? code k i = some e
  taken : s.handOver e.slot = handTaken
  take : s.slotTake e.slot = e.take
  alone : ∀ x ∈ s.orders.inFlight, x.slot = e.slot → x = e
  canonical : s.boardCanonical

/-- The end of a long order is shown in its slot, its entry has left the in-flight list, and no other slot changes (R13, R15). -/
structure EndShown (s t : State) (e : InFlight) (r : OrderResult) (q : Nat) (vals : List Byte) : Prop where
  done : t.handOver e.slot = handDone
  take : t.slotTake e.slot = e.take
  result : t.slotByte e.slot 4 = BitVec.ofNat 8 r.ctorIdx
  qualifier : t.slotByte e.slot 5 = BitVec.ofNat 8 q
  values : (List.range 8).map (fun k => t.slotByte e.slot (56 + k)) = resultBytes vals
  entry : t.orders.inFlight = s.orders.inFlight.filter (fun x => !decide (x = e))
  others : ∀ m, m ≠ e.slot → sameSlot s t m

end Sys2Proof.Machine
end

