-- ==== Sys2Proof/Certificates/Slice0/Obligations.lean ====
section
/-! DEFINITION. The statements for the provers. -/

open Sys2Proof Sys2Proof.Config Sys2Proof.Machine

/-! ### The machine and its invariants -/

/-- A step with a command waiting is the oldest command's effect on the state with the queue's rest (log entry 2). A step on an empty queue
puts the part's own ready work in the queue, or lets one millisecond pass on both clocks and puts the due expiries in the queue: the model's
choice (log entry 1). -/
def Obligations.StepRunsTheFrontCommand : Prop :=
  ∀ s : State,
    (∀ i rest, s.pending = i :: rest → step s = exec i { s with pending := rest }) ∧
    (s.pending = [] →
      (∀ i, s.ownWork = some i → step s = .next { s with pending := [i] }) ∧
      (s.ownWork = none →
        ∃ t, step s = .next t ∧ t.supply.runTime = s.supply.runTime + 1#48 ∧ t.supply.mineClock = s.supply.mineClock + 1#48 ∧
          t = { s with
            supply.runTime := t.supply.runTime, supply.mineClock := t.supply.mineClock, pending := t.dueCommands }))

/-- What a cold reset leaves that the spec gives a value for (R179 and the reset values of the chapters). -/
def Obligations.ColdResetValues : Prop :=
  let s := State.reset
  s.supply.phase = .boot ∧ s.supply.fatal = .none ∧ s.supply.mineClock = 0 ∧ s.supply.runTime = 0 ∧
  s.supply.retained = { latches := [], evacActive := false, drill := false, cause := .cold, warmCount := 0, checkBad := false } ∧
  s.supply.policy = Policy.default ∧ s.supply.mode = .mains ∧
  s.port.notice = 0 ∧ s.port.enable = 0 ∧ s.port.written = 0 ∧ s.port.taken = 0 ∧ s.port.capture = none ∧
  s.port.held = none ∧ s.port.fullEpisode = false ∧ s.port.log = [] ∧ (∀ c, s.causeCount c = 0) ∧
  s.orders.scanPos = 31 ∧ s.orders.scanRunning = false ∧ s.orders.scanPending = false ∧ s.orders.takes = 0 ∧
  s.orders.inFlight = [] ∧ s.loop.state = .whole ∧ s.loop.rounds = 0 ∧ s.loop.overruns = 0 ∧ s.loop.heads = [] ∧
  s.air.channels = [] ∧ s.zone.zones = [] ∧ s.people.roster = [] ∧ s.people.conditions = [] ∧ s.haul.vehicles = [] ∧
  s.haul.encounters = [] ∧ s.route.refuges = [] ∧ s.route.generation = 0 ∧ (∀ z, (s.escape z).way = none) ∧
  s.evac.state = .quiet ∧ s.evac.drill = false ∧ s.alarm.district = .normal ∧ s.alarm.out3 = false ∧ s.alarm.out4 = false ∧
  (∀ n, n < slotCount → s.handOver n = handEmpty)

/-- The invariants hold right after reset. -/
def Obligations.ResetMeetsTheInvariants : Prop :=
  State.reset.boardCanonical ∧ State.reset.noticeLegal ∧ State.reset.inFlightLegal ∧ State.reset.settled ∧
  State.reset.relaySafe ∧ State.reset.tablesRising ∧ State.reset.listsDistinct ∧ State.reset.musterSound

/-- Every step keeps the order board's bytes in canonical form, NOTICE and NOTICE_ENABLE within bits 6..0 (R7), the in-flight list within 8
entries (R12, R14), the indices of the tables rising, and leaves nothing of its own work waiting. -/
def Obligations.StepsKeepTheForms : Prop :=
  ∀ s t : State, step s = .next t →
    (s.boardCanonical → t.boardCanonical) ∧ (s.noticeLegal → t.noticeLegal) ∧ (s.inFlightLegal → t.inFlightLegal) ∧
    (s.tablesRising → t.tablesRising) ∧ (s.settled → t.settled)

/-- Every step keeps the rule of the relay commands: CLOSED only in RUNNING, in a powered zone in use whose latch is clear, which is not
TRIPPED, and which is COVERED or in BLIND_GRACE (R83). -/
def Obligations.RelayCommandsStaySafe : Prop :=
  ∀ s t : State, s.relaySafe → step s = .next t → t.relaySafe

/-- A trip latch that is set stays set through every step, but for a cold reset, a reset whose retained block fails its check bits, and a
CLEAR TRIP of the zone in the slot that the scan has reached (R82). -/
def Obligations.TripLatchStands : Prop :=
  ∀ (s t : State) (z : Nat), s.latched z = true → step s = .next t →
    t.latched z = true ∨ s.pending.head? = some .coldReset ∨ s.supply.retained.checkBad = true ∨
    ∃ check, s.decodeOrder s.orders.next = some (.clearTrip s.orders.next z check)

/-- Every step keeps the lists free of repeats: no two in-flight entries hold one slot or conflicting targets (R14), no two roster entries
and no two vehicles hold one tag (R107, R125), and no pair is listed twice (R136). -/
def Obligations.ListsStayDistinct : Prop :=
  ∀ s t : State, s.tablesRising → s.listsDistinct → step s = .next t → t.listsDistinct

/-- Every step keeps the muster's books: required is safe and unaccounted together, the counts and the muster fields are at rest while no
evacuation runs (R158), and a roster entry has an EVACUATE condition exactly while it is REQUIRED (R160). -/
def Obligations.MusterStaysSound : Prop :=
  ∀ s t : State, s.tablesRising → s.musterSound → step s = .next t → t.musterSound

/-! ### The host port -/

/-- HOST_MEMORY_READ drives on HD the word at the even address: a register, two bytes of exchange memory with the lower address in the low
half, or 0 in BOOT. STATE shows phase, supply mode, fatal code, any-latch and evacuation state in the bits of Table 1-3. Nothing else
changes, at an address other than the written count's (R1, R2, R7). What these bytes of exchange memory are: the cause counters (R19), the
log's counts and ring (R21, R22, Table 1-10), a pattern record and an in-flight entry, whose offsets and widths are inferred (log entry 8),
an unused entry's version count and zero bytes (R3), and 0 at an address in no region (R2). The bytes of the other records in use, which
rest on the same inference, are not stated. -/
def Obligations.HostReadReturnsTheWord : Prop :=
  (∀ (addr : Half) (s : State), let a := addr.toNat / 2 * 2
    a ≠ logControlBase → a ≠ logControlBase + 2 →
    s.port.badBytes.contains a = false → s.port.badBytes.contains (a + 1) = false →
    exec (.hostMemoryRead addr) s = .next { s with
      port.hostData :=
        if registerBase ≤ a then
          (if a = 0xFFF0 then 0x4001#16
           else if a = 0xFFF2 then
             BitVec.ofNat 16
               ((match s.supply.phase with | .boot => 0 | .setup => 1 | .running => 2 | .halted => 3)
                + (match s.supply.mode with | .mains => 0 | .battery => 4 | .reserve => 8)
                + (match s.supply.fatal with | .none => 0 | .internalCheck => 16 | .exchangeFault => 32)
                + (if s.supply.phase = .boot ∨ s.supply.retained.latches = [] then 0 else 64)
                + (match s.evac.state with
                   | .quiet => 0 | .asking => 128 | .alerting => 256 | .mustering => 384 | .accounted => 512 | .overdue => 640))
           else if a = 0xFFF4 then s.port.notice
           else if a = 0xFFF6 then s.port.enable
           else 0#16)
        else if s.supply.phase = .boot then 0#16
        else BitVec.ofNat 16 ((s.readByte a).toNat + 256 * (s.readByte (a + 1)).toNat) }) ∧
  ∀ s : State,
    let shows (base size : Nat) (bytes : List Byte) : Prop :=
      ∀ j, j < size → s.readByte (base + j) = (leBytes 2 (s.version base).toNat ++ bytes).getD j 0#8
    (∀ c : Cause, ∀ j, j < 2 → s.readByte (0x0100 + 2 * c.ctorIdx + j) = (leBytes 2 (s.causeCount c).toNat).getD j 0#8) ∧
    (∀ j, j < 8 → s.readByte (0x0200 + j) = (leBytes 4 s.port.written.toNat ++ leBytes 4 s.port.taken.toNat).getD j 0#8) ∧
    (∀ n off, n < 32 → off < 64 → s.readByte (0x0400 + 64 * n + off) = s.slotByte n off) ∧
    (∀ k e, k < 256 → lookupAt s.port.log k = some e → ∀ j, j < 16 → s.readByte (0x0C00 + 16 * k + j) =
      (leBytes 6 e.clock.toNat ++ [BitVec.ofNat 8 e.kind, BitVec.ofNat 8 e.cls] ++ leBytes 2 e.index ++ leBytes 2 e.a.toNat
        ++ leBytes 2 e.b.toNat ++ leBytes 2 e.seq.toNat).getD j 0#8) ∧
    (∀ k, k < 256 → lookupAt s.port.log k = none → ∀ j, j < 16 → s.readByte (0x0C00 + 16 * k + j) = 0#8) ∧
    (∀ i, i < 7 → let p := s.pattern i
      shows (0x7000 + 8 * i) 8
        [BitVec.ofNat 8 i, BitVec.ofNat 8 p.onTime, BitVec.ofNat 8 p.offTime, BitVec.ofNat 8 p.duty, BitVec.ofNat 8 p.repeats]) ∧
    (∀ i e, i < 8 → s.orders.inFlight[i]? = some e →
      shows (0x7100 + 16 * i) 16
        ([BitVec.ofNat 8 e.slot] ++ leBytes 2 e.take.toNat ++ [BitVec.ofNat 8 e.code, BitVec.ofNat 8 e.target.ctorIdx,
          BitVec.ofNat 8 e.index] ++ leBytes 4 (e.start.toNat % 2 ^ 32))) ∧
    (∀ i, i < 8 → s.orders.inFlight.length ≤ i → shows (0x7100 + 16 * i) 16 []) ∧
    (∀ i, i < 96 → s.channel? i = none → shows (0x2400 + 48 * i) 48 []) ∧
    (∀ z, z < 32 → (s.zoneRec z).inUse = false → s.latched z = false → shows (0x3600 + 96 * z) 96 []) ∧
    (∀ i, i < 256 → s.miner? i = none → shows (0x4200 + 32 * i) 32 []) ∧
    (∀ i, i < 24 → s.vehicle? i = none → shows (0x6200 + 32 * i) 32 []) ∧
    (∀ i, i < 48 → s.haul.encounters.length ≤ i → shows (0x6500 + 16 * i) 16 []) ∧
    (∀ i, i < 4 → s.refuge? i = none → shows (0x6800 + 64 * i) 64 []) ∧
    (∀ r, r < 24 → lookupAt s.people.lists r = none → shows (0x6A00 + 64 * r) 64 []) ∧
    ∀ a, (0x0120 ≤ a ∧ a < 0x0200) ∨ (0x0208 ≤ a ∧ a < 0x0400) ∨ (0x7040 ≤ a ∧ a < 0x7100) ∨ 0x7180 ≤ a → s.readByte a = 0#8

/-- A byte whose check bit does not match is given to the host as stored and leads to HALTED with EXCHANGE_FAULT (R6), with what the entry
to HALTED does: the scan ends, the exchange is abandoned, relay commands and contacts open (R18, R29, R89, R173). In HALTED the first code
stands. The same mismatch found by the Order Unit's own reads has the same effect: at a scan's visit the hand-over field, and of a slot it
takes the order code and arguments; at an end report the hand-over field and the take number (which bytes a block reads is the model's
choice, log entry 16). A mismatch of the state held inside the blocks or of the retained block gives INTERNAL_CHECK at the next event of a
block (R177). -/
def Obligations.CheckBitMismatchHalts : Prop :=
  (∀ (addr : Half) (s : State), let a := addr.toNat / 2 * 2
    a < registerBase → a ≠ logControlBase + 2 →
    (s.port.badBytes.contains a = true ∨ s.port.badBytes.contains (a + 1) = true) →
    (s.active = true →
      ∃ t, exec (.hostMemoryRead addr) s = .next t ∧ t.port.hostData = s.hostWord a ∧ HaltedWith s t .exchangeFault) ∧
    (s.supply.phase = .halted →
      ∃ t, exec (.hostMemoryRead addr) s = .next t ∧ t.port.hostData = s.hostWord a ∧ t.supply = s.supply)) ∧
  ∀ s : State, s.active = true →
    (let n := s.orders.next
     s.insideBad = false → s.orders.scanRunning = true →
     (s.port.badBytes.contains (slotAddr n 0) = true ∨
       (s.takeable n = true ∧ (s.port.badBytes.contains (slotAddr n 1) = true ∨
         ∃ off, 8 ≤ off ∧ off ≤ 55 ∧ s.port.badBytes.contains (slotAddr n off) = true))) →
     ∃ t, exec .scanVisit s = .next t ∧ HaltedWith s t .exchangeFault) ∧
    (∀ (e : InFlight) (r : OrderResult) (q : Nat) (vals : List Byte),
      (s.port.badBytes.contains (slotAddr e.slot 0) = true ∨ s.port.badBytes.contains (slotAddr e.slot 2) = true ∨
        s.port.badBytes.contains (slotAddr e.slot 3) = true) →
      let t := s.endEntry e r q vals
      HaltedWith s t .exchangeFault ∧ t.orders.inFlight = s.orders.inFlight) ∧
    ((s.supply.internalBad = true ∨ s.supply.retained.checkBad = true) →
      (∀ i : Instr, isUnitEvent i = true → ∃ t, exec i s = .next t ∧ HaltedWith s t .internalCheck) ∧
      (∀ n i, s.presents n i = true → ∃ t, exec i s = .next t ∧ HaltedWith s t .internalCheck) ∧
      (∀ n level, 1 ≤ n → n ≤ 4 → (s.input n).raw ≠ level →
        ∃ t, exec (.inputPinChange n level) s = .next t ∧ HaltedWith s t .internalCheck ∧ (t.input n).raw = level) ∧
      (10 ≤ elapsed s.supply.runTime s.port.refreshAt →
        ∃ t, exec .summaryClockRefresh s = .next t ∧ HaltedWith s t .internalCheck) ∧
      (20 ≤ elapsed s.supply.runTime s.orders.scanAt →
        ∃ t, exec .scanTimerExpiry s = .next t ∧ HaltedWith s t .internalCheck))

/-- The bytes of a slot that the host may write, by Table 1-4 and R9: EMPTY or POSTED to the hand-over field, anything to the order code,
the host tag and the arguments, and nothing to the part's fields. A byte that is written is the only one that changes. The commands
HOST_MEMORY_WRITE and HAND_OVER_WRITE, outside BOOT. Host writes to standing regions, to addresses in no region and, in BOOT, to all of
exchange memory are discarded (R1, R2). NOTICE is cleared bit by bit by writes of 1, NOTICE_ENABLE holds what is written, and NOTIFY follows
the two at once (R7, R20). A write through the register window has the same effects; CONTROL takes SCAN 1 and RESTART 2, and every other
write in the window is ignored (R7). -/
def Obligations.HostWritesAreProtected : Prop :=
  (∀ (addr data : Half) (lo hi : Bool) (s : State),
    (∀ n off : Nat, n < slotCount → off + 1 < slotSize → addr.toNat / 2 * 2 = slotAddr n off → s.supply.phase ≠ .boot → s.boardCanonical →
      ∃ t, exec (.hostMemoryWrite addr data lo hi) s = .next t ∧
        (off = 0 → exec (.handOverWrite n data lo hi) s = .next t) ∧
        (∀ k, k < slotSize → t.slotByte n k =
          if k = off ∧ lo = true ∧
              ((k = 0 ∧ data.toNat % 256 ≤ 1) ∨ k = 1 ∨ (6 ≤ k ∧ k ≤ 55)) then BitVec.ofNat 8 data.toNat
          else if k = off + 1 ∧ hi = true ∧ (k = 1 ∨ (6 ≤ k ∧ k ≤ 55)) then BitVec.ofNat 8 (data.toNat / 256)
          else s.slotByte n k) ∧
        (∀ m, m ≠ n → sameSlot s t m) ∧
        t = { s with port.board := t.port.board, port.badBytes := t.port.badBytes }) ∧
    (let a := addr.toNat / 2 * 2
     a < registerBase →
     (s.supply.phase = .boot ∨
       ((a < boardBase ∨ boardBase + slotSize * slotCount ≤ a) ∧ a ≠ logControlBase + 4 ∧ a ≠ logControlBase + 6)) →
     exec (.hostMemoryWrite addr data lo hi) s = .next s)) ∧
  ∀ (d : Half) (s : State),
    exec (.noticeWrite d true true) s = .next { s with port.notice := s.port.notice &&& ~~~(d &&& 0x007F#16) } ∧
    exec (.noticeEnableWrite d true true) s = .next { s with port.enable := d &&& 0x007F#16 } ∧
    (s.notifyLow = true ↔ s.port.notice &&& s.port.enable ≠ 0#16) ∧
    exec (.registerWrite 0xFFF4#16 d true true) s = .next { s with port.notice := s.port.notice &&& ~~~(d &&& 0x007F#16) } ∧
    exec (.registerWrite 0xFFF6#16 d true true) s = .next { s with port.enable := d &&& 0x007F#16 } ∧
    (d = 1#16 → exec (.registerWrite 0xFFF8#16 d true true) s = exec .scan s) ∧
    (d = 2#16 → exec (.registerWrite 0xFFF8#16 d true true) s = exec .restart s) ∧
    (d ≠ 1#16 → d ≠ 2#16 → exec (.registerWrite 0xFFF8#16 d true true) s = .next s) ∧
    ∀ (addr : Half) (lo hi : Bool), registerBase ≤ addr.toNat →
      addr.toNat / 2 * 2 ≠ 0xFFF4 → addr.toNat / 2 * 2 ≠ 0xFFF6 → addr.toNat / 2 * 2 ≠ 0xFFF8 →
      exec (.registerWrite addr d lo hi) s = .next s

/-- The written count is read low half first; the read captures the high half, which the next read of it returns (R21). The taken count: a
write of the low half is held; a write of the high half forms the new value, which becomes the taken count when it leaves no larger backlog,
and the written count otherwise; the full episode ends when the backlog falls below 256 (R22, R23). A write of one byte of a half takes the
other byte from the taken count as it stands, which is inferred (log entry 14), and one of neither byte does nothing. In BOOT the read gives
0 and the write is discarded (R1). Both commands are the host accesses at their addresses. A raise increments its cause counter,
wrapping, and sets its group's bit of NOTICE (R19, R20). An event is appended at the written count modulo 256 with the mine clock and the
low half of the count as sequence, while the backlog is below 256; otherwise it is dropped, and the first drop of a full episode raises
LOG_FULL (R21 to R23). The events and record changes of one step are gathered (log entries 22 and 42): at its end each record takes one
update for each unit that wrote it, which raises its version count by two (R4), and the events are appended, in their order, those kept for
after the hand-offs last, as long as there is room. -/
def Obligations.TheLogAndItsCounts : Prop :=
  ∀ (s : State),
    (∀ (d : Half) (lo hi : Bool),
      exec .writtenCountRead s = exec (.hostMemoryRead 0x0200#16) s ∧
      exec (.takenCountWrite false d lo hi) s = exec (.hostMemoryWrite 0x0204#16 d lo hi) s ∧
      exec (.takenCountWrite true d lo hi) s = exec (.hostMemoryWrite 0x0206#16 d lo hi) s) ∧
    (s.supply.phase = .boot → exec .writtenCountRead s = .next { s with port.hostData := 0#16 } ∧
      ∀ (high : Bool) (d : Half) (lo hi : Bool), exec (.takenCountWrite high d lo hi) s = .next s) ∧
    (∀ (high : Bool) (d : Half), exec (.takenCountWrite high d false false) s = .next s) ∧
    (s.supply.phase ≠ .boot → s.port.badBytes = [] →
      exec .writtenCountRead s = .next { s with
        port.hostData := BitVec.ofNat 16 s.port.written.toNat
        port.capture := some (BitVec.ofNat 16 (s.port.written.toNat / 65536)) } ∧
      exec (.hostMemoryRead 0x0202#16) s = .next { s with
        port.hostData := s.port.capture.getD (BitVec.ofNat 16 (s.port.written.toNat / 65536))
        port.capture := none }) ∧
    (∀ (d : Half) (lo hi : Bool), s.supply.phase ≠ .boot → (lo = true ∨ hi = true) →
      let merged (old : Nat) : Half := BitVec.ofNat 16
        ((if lo then d.toNat % 256 else old % 256) + 256 * (if hi then d.toNat / 256 else old / 256 % 256))
      exec (.takenCountWrite false d lo hi) s = .next { s with port.held := some (merged s.port.taken.toNat) } ∧
      (lo = true → hi = true → merged s.port.taken.toNat = d) ∧
      ∃ t, exec (.takenCountWrite true d lo hi) s = .next t ∧
        (let v : BitVec 32 := BitVec.ofNat 32
           ((merged (s.port.taken.toNat / 65536)).toNat * 65536 + (s.port.held.getD (BitVec.ofNat 16 s.port.taken.toNat)).toNat)
         t.port.taken = if (s.port.written - v).toNat ≤ s.backlog then v else s.port.written) ∧
        t = { s with
          port.taken := t.port.taken, port.held := none, port.badBytes := t.port.badBytes
          port.fullEpisode := s.port.fullEpisode && decide (256 ≤ t.backlog) }) ∧
    (∀ c : Cause, let t := s.raise c
      t.causeCount c = s.causeCount c + 1#16 ∧ (∀ d, d ≠ c → t.causeCount d = s.causeCount d) ∧
      t.port.notice = s.port.notice ||| BitVec.ofNat 16 (2 ^ c.group) ∧
      t = { s with port.causes := t.port.causes, port.notice := t.port.notice }) ∧
    (∀ x : News, let t := s.appendNow x
      ((s.port.written - s.port.taken).toNat < 256 →
        t.port.written = s.port.written + 1#32 ∧ t.causeCount .eventLogged = s.causeCount .eventLogged + 1#16 ∧
        (∀ k, lookupAt t.port.log k =
          if k = s.port.written.toNat % 256 then
            some {
              clock := s.supply.mineClock, kind := x.kind, cls := x.cls, index := x.index, a := BitVec.ofNat 16 x.a
              b := BitVec.ofNat 16 x.b, seq := BitVec.ofNat 16 s.port.written.toNat }
          else lookupAt s.port.log k)) ∧
      (256 ≤ (s.port.written - s.port.taken).toNat →
        t.port.log = s.port.log ∧ t.port.written = s.port.written ∧ t.port.fullEpisode = true ∧
        t.causeCount .logFull = (if s.port.fullEpisode then s.causeCount .logFull else s.causeCount .logFull + 1#16))) ∧
    (∀ kind cls index a b : Nat, let t := s.append kind cls index a b
      let new : News := { kind := kind, cls := cls, index := index, a := a, b := b }
      (∀ m, m ∈ t.work.news ↔ m = new ∨ m ∈ s.work.news) ∧ t = { s with work.news := t.work.news }) ∧
    (let t := s.flush
     let events := s.work.news ++ s.work.late
     (∀ a, t.version a =
       s.version a + 2#16 * BitVec.ofNat 16 ((s.work.dirty ++ s.work.guests.map Prod.snd).count a)) ∧
     (s.backlog + events.length ≤ 256 →
       t.port.written = s.port.written + BitVec.ofNat 32 events.length ∧
       ∀ j (x : News), events[j]? = some x → ∃ e, lookupAt t.port.log ((s.port.written.toNat + j) % 256) = some e ∧
         e.kind = x.kind ∧ e.cls = x.cls ∧ e.index = x.index ∧ e.a = BitVec.ofNat 16 x.a ∧ e.b = BitVec.ofNat 16 x.b ∧
         e.clock = s.supply.mineClock) ∧
     t.work.dirty = [] ∧ t.work.guests = [] ∧ t.work.news = [] ∧ t.work.late = []) ∧
    ∀ (g : Guest) (a : Nat), (s.bumpGuest g a).work.guests.count (g, a) = max 1 (s.work.guests.count (g, a)) ∧
      (s.bump a).work.dirty.contains a ∧ ((s.work.dirty.Pairwise (· < ·)) → (s.bump a).work.dirty.Pairwise (· < ·))

/-- A request for a scan starts one at the slot after the scan position, or sets scan-pending while one runs; the scan timer's expiry, every
20 ms of run time, is such a request; neither acts outside SETUP and RUNNING (R10). A visit of a slot that is not POSTED, or whose number an
in-flight entry holds, passes over it; the visit of the thirty-second slot ends the scan, or starts a new one where one is asked for (R10,
R11). -/
def Obligations.ScanRequestsAndVisits : Prop :=
  ∀ s : State,
    (s.active = true → s.insideBad = false → s.orders.scanRunning = false →
      exec .scan s = .next { s with
        orders.scanRunning := true, orders.next := (s.orders.scanPos + 1) % 32, orders.left := 32 }) ∧
    (s.active = true → s.insideBad = false → s.orders.scanRunning = true → exec .scan s = .next { s with orders.scanPending := true }) ∧
    (s.active = true → s.insideBad = false → 20 ≤ elapsed s.supply.runTime s.orders.scanAt → s.orders.scanRunning = false →
      exec .scanTimerExpiry s = .next { s with
        orders.scanAt := s.orders.scanAt + 20#48, orders.scanRunning := true
        orders.next := (s.orders.scanPos + 1) % 32, orders.left := 32 }) ∧
    (s.active = true → s.insideBad = false → 20 ≤ elapsed s.supply.runTime s.orders.scanAt → s.orders.scanRunning = true →
      exec .scanTimerExpiry s = .next { s with orders.scanAt := s.orders.scanAt + 20#48, orders.scanPending := true }) ∧
    (s.active = false → exec .scan s = .next s ∧ exec .scanTimerExpiry s = .next s) ∧
    (Awake s → s.orders.scanRunning = true →
      (s.handOver s.orders.next ≠ handPosted ∨ ∃ e ∈ s.orders.inFlight, e.slot = s.orders.next) →
      (2 ≤ s.orders.left →
        exec .scanVisit s = .next { s with
          orders.next := (s.orders.next + 1) % 32, orders.left := s.orders.left - 1 }) ∧
      (s.orders.left ≤ 1 → s.orders.scanPending = false →
        exec .scanVisit s = .next { s with orders.scanRunning := false, orders.left := 0 }) ∧
      (s.orders.left ≤ 1 → s.orders.scanPending = true →
        exec .scanVisit s = .next { s with
          orders.scanPending := false, orders.next := (s.orders.scanPos + 1) % 32, orders.left := 32 }))

/-- A warm reset enters BOOT with every block at its reset values; the trip latches, the evacuation flags and the mine clock are kept, the
last reset cause becomes WARM and the count rises to at most 65535, unless the retained block fails its check bits. A cold reset clears
these too (R179). The end of BOOT: SETUP, the supply mode from the IN2 and IN3 pins, RESET_DONE and PHASE_CHANGE as the log's first two
entries, every version count 0, and the first round begun with the automatic roll call and its MARKER out on end A (R4, R44, R174, R175,
R177, R179). The reset values of the host data pins, of a slot's other bytes and of the statuses during BOOT, and that the pins' raw values
stay as they are, are the model's choice (log entries 4 and 5); the commands that wait stay in the queue. -/
def Obligations.ResetsEnterBootAndSetupBegins : Prop :=
  (∀ s : State,
    (s.supply.retained.checkBad = false →
      exec .restart s = .next { State.reset with
        supply.in1.raw := s.supply.in1.raw, supply.in2.raw := s.supply.in2.raw, supply.in3.raw := s.supply.in3.raw
        supply.in4.raw := s.supply.in4.raw, supply.mineClock := s.supply.mineClock, pending := s.pending
        supply.retained := { s.supply.retained with cause := .warm, warmCount := min 65535 (s.supply.retained.warmCount + 1) } }) ∧
    (s.supply.retained.checkBad = true →
      exec .restart s = .next { State.reset with
        supply.in1.raw := s.supply.in1.raw, supply.in2.raw := s.supply.in2.raw, supply.in3.raw := s.supply.in3.raw
        supply.in4.raw := s.supply.in4.raw, supply.mineClock := s.supply.mineClock, pending := s.pending }) ∧
    exec .coldReset s = .next { State.reset with
      supply.in1.raw := s.supply.in1.raw, supply.in2.raw := s.supply.in2.raw, supply.in3.raw := s.supply.in3.raw
      supply.in4.raw := s.supply.in4.raw, pending := s.pending }) ∧
  ∀ (r : Retained) (mine : Clock) (p1 p2 p3 p4 : Bool) (q : List Instr),
    let s := State.boot r mine p1 p2 p3 p4 q
    ∃ t, exec .enterSetup s = .next t ∧ t.supply.phase = .setup ∧
      t.supply.mode = (if p2 then .mains else if p3 then .reserve else .battery) ∧
      t.loop.rates = t.supply.mode ∧ t.port.written = 2#32 ∧
      lookupAt t.port.log 0 = some {
        clock := mine, kind := 0xA0, cls := 7, index := 0, a := BitVec.ofNat 16 r.cause.ctorIdx, b := BitVec.ofNat 16 r.warmCount, seq := 0#16 } ∧
      lookupAt t.port.log 1 = some { clock := mine, kind := 0xA1, cls := 7, index := 0, a := 0#16, b := 1#16, seq := 1#16 } ∧
      t.port.versions = [] ∧ t.loop.rollCall = some { automatic := true, begun := true, address := 1, tries := [] } ∧
      (∃ x, t.loop.exchange = some x ∧ x.frame.kind = .marker ∧ x.side = .a) ∧ t.loop.round.isSome = true ∧
      t.supply.retained = r ∧ t.supply.mineClock = mine ∧ t.pending = q ∧ t.orders.takes = 0#16 ∧ t.orders.inFlight = [] ∧
      t.evac = s.evac ∧ t.alarm = s.alarm ∧ t.zone = s.zone ∧ t.port.board = []

/-- A pin that changes in SETUP or RUNNING: the raw value follows it, an edge into the active level sets the latch of an enabled EDGE input,
the status is formed anew, and a change of the IN2 or IN3 status judges the supply mode (R174, R175). A change of IN1 to active is a PULL
trigger of the evacuation machine: in RUNNING it enters ALERTING from QUIET or ASKING and converts a drill, in SETUP it does nothing (R154,
R163). A change of IN4 evaluates its zone: in RUNNING an active IN4 trips it with cause EXTERNAL, and the trip stands when IN4 falls (R76,
R81, R82). In BOOT and in HALTED the raw value alone follows. -/
def Obligations.PinsFormTheInputs : Prop :=
  ∀ (n : Nat) (level : Bool) (s : State), 1 ≤ n → n ≤ 4 → (s.input n).raw ≠ level →
    let i := s.input n
    let latch := i.latch || (i.enabled && i.edge && (level != i.activeLow))
    let status := if i.enabled then (if i.edge then latch else level != i.activeLow) else decide (n = 2)
    (s.supply.phase = .boot → exec (.inputPinChange n level) s = .next (s.putInput n { i with raw := level })) ∧
    (s.supply.phase = .halted →
      ∃ t, exec (.inputPinChange n level) s = .next t ∧ t.supply = (s.putInput n { i with raw := level }).supply) ∧
    (Awake s → ∃ t, exec (.inputPinChange n level) s = .next t ∧
      t.input n = { i with raw := level, latch := latch, status := status } ∧
      (∀ m, 1 ≤ m → m ≤ 4 → m ≠ n → t.input m = s.input m) ∧
      t.supply.mode =
        (if i.status = status ∨ n = 1 ∨ n = 4 then s.supply.mode
         else if t.supply.in2.status then .mains
         else if t.supply.in3.status then .reserve
         else if s.supply.mode = .reserve then .reserve else .battery) ∧
      t.outline = ({ (s.putInput n (t.input n)) with supply.mode := t.supply.mode } : State).outline ∧
      (i.status = status → t.evac = s.evac ∧ t.zone = s.zone) ∧
      (n = 1 → i.status = false → status = true →
        (s.running = false → t.evac = s.evac) ∧
        (s.running = true → t.evac.drill = false ∧
          t.evac.state = if s.evac.state = .quiet ∨ s.evac.state = .asking then .alerting else s.evac.state)) ∧
      (n = 1 → status = false → t.evac = s.evac ∧ t.zone = s.zone) ∧
      (n = 4 → i.status ≠ status → ∀ z, s.supply.in4Zone = some z → (s.zoneRec z).inUse = true →
        (t.zoneRec z).ch4 = t.aggregate z .ch4 ∧
        (s.running = false → (t.zoneRec z).trip = (s.zoneRec z).trip) ∧
        (s.running = true → status = true → (t.zoneRec z).trip = .tripped ∧ (t.zoneRec z).cause = some .external ∧
          (t.zoneRec z).closed = false ∧ ((s.zoneRec z).trip ≠ .tripped → t.latched z = true)) ∧
        (status = false → (s.zoneRec z).trip = .tripped →
          (t.zoneRec z).trip = .tripped ∧ (t.zoneRec z).cause = (s.zoneRec z).cause)) ∧
      (n = 4 → s.supply.in4Zone = none → t.zone = s.zone))

/-- Every 10 ms of run time the summary block's clocks take the present values in one record update (R5), in HALTED too, which is inferred
(log entry 27); and the phases of the district play follow the pattern's on-time and off-time, in units of 10 ms, and its repeat count
(R171). -/
def Obligations.RefreshAndPlay : Prop :=
  ∀ s : State,
    (s.supply.phase ≠ .boot → (s.active = true → s.insideBad = false) → s.port.badBytes = [] → 10 ≤ elapsed s.supply.runTime s.port.refreshAt →
      ∃ t, exec .summaryClockRefresh s = .next t ∧
        t = { s with
          port.shownMine := s.supply.mineClock, port.shownRun := s.supply.runTime, port.refreshAt := s.supply.runTime
          port.versions := t.port.versions } ∧
        t.version summaryBase = s.version summaryBase + 2#16 ∧ ∀ a, a ≠ summaryBase → t.version a = s.version a) ∧
    ∀ k, s.alarm.play.pattern = some k → (s.active = true → s.insideBad = false) →
      let p := s.pattern k
      let n := s.alarm.play.cycles + 1
      let ends : State := { s with
        alarm.play := { s.alarm.play with
          cycles := n, since := s.supply.runTime, stage := if p.repeats ≠ 0 ∧ p.repeats ≤ n then .stopped else .on } }
      (s.alarm.play.stage = .on → p.onTime * 10 ≤ elapsed s.supply.runTime s.alarm.play.since →
        exec .playPhaseExpiry s = .next
          (if p.offTime = 0 then ends
           else { s with alarm.play := { s.alarm.play with stage := .off, since := s.supply.runTime } })) ∧
      (s.alarm.play.stage = .off → p.offTime * 10 ≤ elapsed s.supply.runTime s.alarm.play.since →
        exec .playPhaseExpiry s = .next ends)

/-! ### Orders -/

/-- An order that a check of steps 2 to 6 refuses ends at once with the result and qualifier of that check, the first of them that fails;
nothing changes but its slot, the progress of the scan and the take counter, and the raise of ORDER_ENDED (R12, R13, R17). The same where
the owner of a set-up order refuses it: SET HEAD and RETIRE HEAD (R42, R43), SET CHANNEL (R51), SET ZONE (R73), SET REFUGE (R142), SET
ROSTER ENTRY (R109), SET VEHICLE (R126), each by the first of its own checks that fails; which of several repeating lists check 4 of SET
ZONE names, and which of several other zones its check 6, is the model's choice (log entry 52). -/
def Obligations.RefusedOrdersChangeNothing : Prop :=
  (∀ (n : Nat) (i : Instr) (o : OrderSpec) (s : State) (r : OrderResult) (q : Nat), Posted s n i → specOf i = some o →
    let phased := s.running = true ∨ o.inSetup = true
    ((o.checkOk = false ∧ r = .badCheck ∧ q = 0) ∨
      (o.checkOk = true ∧ ¬phased ∧ r = .notNow ∧ q = 0) ∨
      (o.checkOk = true ∧ phased ∧ o.bad = some q ∧ r = .badArgument) ∨
      (o.checkOk = true ∧ phased ∧ o.bad = none ∧ r = .busy ∧ q = 0 ∧
        ∃ k x, o.target = some (k, x) ∧ s.targetBusy k x = true) ∨
      (o.checkOk = true ∧ phased ∧ o.bad = none ∧ r = .full ∧ q = 0 ∧ 8 ≤ s.orders.inFlight.length ∧
        ∃ k x, o.target = some (k, x) ∧ s.targetBusy k x = false)) →
    ∃ t, exec i s = .next t ∧ Shows s t n r q [] ∧ Untouched s t n) ∧
  ∀ (n : Nat) (s : State),
    (∀ x : HeadArgs,
      let h := s.head x.address
      let kind := HeadKind.ofCode x.kind
      let other := s.headAtPosition x.address x.position
      Refuses n (.setHead n x) s
        [(decide (h.configured = true ∧ ¬(h.kind = kind ∧ h.serial = some x.serial) ∧ s.testOn x.address = true), .busy, 0, []),
         (other.isSome, .badSetup, other.getD 0, []),
         (decide (kind = .reader ∧ 25 ≤ s.countKind x.address .reader + 1), .full, 0, []),
         (decide (kind = .refuge ∧ 5 ≤ s.countKind x.address .refuge + 1), .full, 0, [])]) ∧
    (∀ a : Nat, Refuses n (.retireHead n a) s
      [(decide ((s.head a).configured = false), .noTarget, 0, []), (s.testOn a, .busy, 0, [])]) ∧
    (∀ x : ChannelArgs,
      let k := ChannelKind.ofCode x.kind
      let recordHead := ((s.channel? x.index).map (·.head)).toList
      let other := s.air.channels.find? fun p => decide (p.2.head = x.head) && decide (p.2.slot = x.slot) && !decide (p.1 = x.index)
      Refuses n (.setChannel n x) s (if x.op = 0 then
          [(s.heldInFlight x.index recordHead, .busy, 0, []), ((s.channel? x.index).isNone, .noTarget, 0, [])]
        else
          [(s.heldInFlight x.index (x.head :: recordHead), .busy, 0, []), (decide (x.span < x.zero + 64), .badArgument, 16, []),
           (decide (¬if k = .o2 ∨ k = .airvel then x.l2 ≤ x.l1 ∧ x.l3 ≤ x.l2 else x.l1 ≤ x.l2 ∧ x.l2 ≤ x.l3), .badArgument, 20, []),
           (other.isSome, .badSetup, (other.map Prod.fst).getD 0, []),
           (decide ((s.head x.head).configured = true ∧ (s.head x.head).kind = .refuge ∧
             ¬((x.slot = 0 ∧ k = .o2) ∨ (x.slot = 1 ∧ k = .co))), .badSetup, 12, [])])) ∧
    (∀ x : ZoneArgs,
      let r := s.zoneRec x.zone
      let ns := x.neighbours.take x.nNeighbours
      let rs := x.readers.take x.nReaders
      let ls := x.relays.take x.nRelays
      let ss := x.sounders.take x.nSounders
      let elsewhere := s.namedElsewhere x.zone rs ss ls
      Refuses n (.setZone n x) s (if x.op = 0 then
          [(decide (r.inUse = false), .noTarget, 0, []), (s.running, .notNow, 9, [])]
        else
          [(decide (s.running = true ∧ r.inUse = true ∧ r.kind ≠ ZoneKind.ofCode x.kind), .notNow, 10, []),
           (decide (x.zone ∈ ns ∨ ¬ns.Nodup), .badArgument, 14, []), (decide ¬rs.Nodup, .badArgument, 19, []),
           (decide ¬ss.Nodup, .badArgument, 31, []), (decide ¬ls.Nodup, .badArgument, 22, []),
           (decide (x.powered = 0 ∧ ls ≠ []), .badSetup, 21, []), (elsewhere.isSome, .badSetup, elsewhere.getD 0, []),
           (s.running && !s.symmetricWith x.zone ns, .badSetup, 13, [])])) ∧
    (∀ x : RefugeArgs,
      let zoned := s.otherRefuge x.index fun r => decide (r.zone = x.zone)
      let panelled := s.otherRefuge x.index fun r => decide (r.panel = x.panel)
      Refuses n (.setRefuge n x) s (if x.op = 0 then [((s.refuge? x.index).isNone, .noTarget, 0, [])]
        else
          [(decide (x.o2 = x.co), .badArgument, 14, []), (zoned.isSome, .badSetup, zoned.getD 0, []),
           (panelled.isSome, .badSetup, panelled.getD 0 + 0x10, [])])) ∧
    (∀ i op tag person : Nat,
      let other := s.people.roster.find? fun p => decide (p.2.tag = tag) && !decide (p.1 = i)
      Refuses n (.setRosterEntry n i op tag person) s
        ((s.orders.inFlight.any fun e => decide (e.target = .roster ∧ e.index = i), .busy, 0, []) ::
          if op = 0 then [((s.miner? i).isNone, .noTarget, 0, [])]
          else [(other.isSome, .badSetup, (other.map Prod.fst).getD 0, [])])) ∧
    ∀ x : VehicleArgs,
      let other := s.haul.vehicles.find? fun p => decide (p.2.tag = x.tag) && !decide (p.1 = x.index)
      Refuses n (.setVehicle n x) s (if x.op = 0 then [((s.vehicle? x.index).isNone, .noTarget, 0, [])]
        else [(other.isSome, .badSetup, (other.map Prod.fst).getD 0, [])])

/-- The order catalogue: each order's code, the target it names if it is a long order, and whether SETUP accepts it (Table 1-6, Table 1-8);
the check byte of the checked orders (R17); the first argument out of its range, by its offset, in the order the owning chapter lists them
(R12 and the orders' own rules); and which targets conflict (R14). The index 0 of the LOOP target is the model's choice (log entry 44), as
is the offset of each entry of a list of SET ZONE (log entry 65); that G of CALIBRATE is checked for SPAN alone is inferred (log entry 38).
-/
def Obligations.OrderCatalogue : Prop :=
  let row (i : Instr) : Option (Nat × Option (TargetKind × Nat) × Bool) := (specOf i).map fun o => (o.code, o.target, o.inSetup)
  let check (i : Instr) : Option Bool := (specOf i).map (·.checkOk)
  let bad (i : Instr) : Option (Option Nat) := (specOf i).map (·.bad)
  let first (l : List (Nat × Bool)) : Option (Option Nat) := some ((l.find? fun p => !p.2).map Prod.fst)
  let w (v lo hi : Nat) : Bool := decide (lo ≤ v ∧ v ≤ hi)
  let kept (ones v lo hi : Nat) : Bool := decide (v = ones ∨ lo ≤ v ∧ v ≤ hi)
  let each (l : List Nat) (count off lo hi : Nat) : List (Nat × Bool) := ((l.take count).zipIdx).map fun p => (off + p.2, w p.1 lo hi)
  (∀ n : Nat,
    (∀ x, row (.setPolicy n x) = some (0x01, none, true)) ∧ (∀ x, row (.setHead n x) = some (0x02, none, true)) ∧
    (∀ a, row (.retireHead n a) = some (0x03, none, true)) ∧ (∀ x, row (.setChannel n x) = some (0x04, none, true)) ∧
    (∀ x, row (.setZone n x) = some (0x05, none, true)) ∧ (∀ x, row (.setRefuge n x) = some (0x06, none, true)) ∧
    (∀ i op tag p, row (.setRosterEntry n i op tag p) = some (0x07, none, true)) ∧
    (∀ x, row (.setVehicle n x) = some (0x08, none, true)) ∧ (∀ x, row (.setPattern n x) = some (0x09, none, true)) ∧
    (∀ x, row (.setInput n x) = some (0x0A, none, true)) ∧ row (.startDistrict n) = some (0x0F, none, true) ∧
    row (.rollCall n) = some (0x10, some (.loop, 0), true) ∧
    (∀ x a, row (.assignAddress n x a) = some (0x11, some (.loop, 0), true)) ∧
    (∀ z k, row (.clearTrip n z k) = some (0x20, none, false)) ∧
    (∀ i a b t, row (.bumpTest n i a b t) = some (0x21, some (.channel, i), false)) ∧
    (∀ a skip, row (.selfCheck n a skip) = some (0x22, some (.head, a), false)) ∧
    (∀ i m g, row (.calibrate n i m g) = some (0x23, some (.channel, i), false)) ∧
    (∀ i m a t, row (.page n i m a t) = some (0x30, some (.roster, i), false)) ∧
    (∀ i a, row (.answerCall n i a) = some (0x31, none, false)) ∧ (∀ i c, row (.commandVehicle n i c) = some (0x32, none, false)) ∧
    (∀ z, row (.blockZone n z) = some (0x40, none, true)) ∧ (∀ z, row (.openZone n z) = some (0x41, none, true)) ∧
    (∀ d r, row (.startEvacuation n d r) = some (0x50, none, false)) ∧ (∀ k, row (.declineEvacuation n k) = some (0x51, none, false)) ∧
    (∀ k, row (.standDown n k) = some (0x52, none, false)) ∧ (∀ i, row (.markAccounted n i) = some (0x53, none, false)) ∧
    (∀ v, row (.setClock n v) = some (0x60, none, true)) ∧ (∀ k, row (.cancel n k) = some (0x61, none, true))) ∧
  (∀ (s : State) (n : Nat), s.decodeOrder n = none ↔ (s.slotByte n 1).toNat ∉
    [0x01, 0x02, 0x03, 0x04, 0x05, 0x06, 0x07, 0x08, 0x09, 0x0A, 0x0F, 0x10, 0x11, 0x20, 0x21, 0x22, 0x23, 0x30, 0x31, 0x32, 0x40,
     0x41, 0x50, 0x51, 0x52, 0x53, 0x60, 0x61]) ∧
  (∀ n z k, check (.clearTrip n z k) = some (decide (crc8 [0x20#8, BitVec.ofNat 8 z] = BitVec.ofNat 8 k)) ∧
    check (.declineEvacuation n k) = some (decide (crc8 [0x51#8] = BitVec.ofNat 8 k)) ∧
    check (.standDown n k) = some (decide (crc8 [0x52#8] = BitVec.ofNat 8 k))) ∧
  (∀ i o, specOf i = some o → o.code ∉ [0x20, 0x51, 0x52] → o.checkOk = true) ∧
  crc8 [0x52#8] = 0x54#8 ∧ crc8 [0x20#8, 0x05#8] = 0x61#8 ∧
  (∀ n (x : PolicyArgs), bad (.setPolicy n x) = first
    [(8, kept 0xFFFF x.pollPeriod 250 4000), (10, kept 0xFFFF x.tripCeiling 50 200), (12, kept 0xFFFF x.blindGrace 0 600),
     (14, kept 0xFFFF x.lostTime 10 600), (16, kept 0xFFFF x.onboardLimit 10 500), (18, kept 0xFFFF x.zeroTolerance 1 200),
     (20, kept 0xFF x.evacPolicy 0 2), (21, kept 0xFFFF x.askWindow 30 300), (23, kept 0xFF x.musterDeadline 5 120),
     (24, kept 0xFF x.patEvacuate 0 7), (25, kept 0xFF x.patDrill 0 7), (26, kept 0xFF x.patTrip 0 7), (27, kept 0xFF x.patAlarm 0 7),
     (28, kept 0xFF x.patWarn 0 7), (29, kept 0xFF x.patFault 0 7)]) ∧
  (∀ n (x : HeadArgs), bad (.setHead n x) = first
    [(8, w x.address 1 63), (9, w x.kind 0 4), (10, w x.position 1 63),
     (11, decide ((x.kind = 0 → 1 ≤ x.count ∧ x.count ≤ 4) ∧ (x.kind = 2 → 1 ≤ x.count ∧ x.count ≤ 2))), (12, w x.window 1 30),
     (13, w x.serial 1 0xFFFFFFFE)]) ∧
  (∀ n a, bad (.retireHead n a) = first [(8, w a 1 63)]) ∧
  (∀ n (x : ChannelArgs), bad (.setChannel n x) = first
    ([(8, w x.index 0 95), (9, w x.op 0 1)] ++ if x.op = 0 then [] else
      let scale := if x.kind = 0 then 500 else if x.kind = 1 then 1000 else if x.kind = 2 then 250 else 1500
      [(10, w x.kind 0 3), (11, w x.head 1 63), (12, w x.slot 0 3), (13, decide (x.zone ≤ 31 ∨ x.zone = 0xFF)), (14, w x.zero 0 4031),
       (16, w x.span 0 4095), (18, w x.gas 1 scale), (20, w x.l1 0 scale), (22, w x.l2 0 scale), (24, w x.l3 0 scale),
       (28, w x.window 1 8)])) ∧
  (∀ n (x : ZoneArgs), bad (.setZone n x) = first
    ([(8, w x.zone 0 31), (9, w x.op 0 1)] ++ if x.op = 0 then [] else
      [(10, w x.kind 0 3), (11, w x.powered 0 1), (12, w x.vote 1 2), (13, w x.nNeighbours 0 4)]
        ++ each x.neighbours x.nNeighbours 14 0 31 ++ [(18, w x.nReaders 0 2)] ++ each x.readers x.nReaders 19 1 63
        ++ [(21, w x.nRelays 0 4)]
        ++ (((x.relays.take x.nRelays).zipIdx).flatMap fun p => [(22 + 2 * p.2, w p.1.1 1 63), (23 + 2 * p.2, w p.1.2 0 1)])
        ++ [(30, w x.nSounders 0 4)] ++ each x.sounders x.nSounders 31 1 63)) ∧
  (∀ n (x : RefugeArgs), bad (.setRefuge n x) = first
    ([(8, w x.index 0 3), (9, w x.op 0 1)] ++ if x.op = 0 then [] else
      [(10, w x.zone 0 31), (11, w x.panel 1 63), (12, w x.capacity 1 60), (13, w x.o2 0 95), (14, w x.co 0 95)])) ∧
  (∀ n i op tag p, bad (.setRosterEntry n i op tag p) = first
    ([(8, w i 0 255), (9, w op 0 1)] ++ if op = 0 then [] else [(10, w tag 1 0x7FFFFF), (13, w p 1 65535)])) ∧
  (∀ n (x : VehicleArgs), bad (.setVehicle n x) = first
    ([(8, w x.index 0 23), (9, w x.op 0 1)] ++ if x.op = 0 then [] else
      [(10, w x.tag 0x800000 0xFFFFFE), (13, w x.number 1 255), (14, w x.drive 0 1)])) ∧
  (∀ n (x : PatternArgs), bad (.setPattern n x) = first
    [(8, w x.index 0 6), (9, w x.onTime 0 255), (10, w x.offTime 0 255), (11, w x.duty 0 3), (12, w x.repeats 0 15)]) ∧
  (∀ n (x : InputArgs), bad (.setInput n x) = first
    [(8, w x.input 1 4), (9, w x.mode 0 1), (10, w x.polarity 0 1), (11, w x.enable 0 1),
     (12, decide (x.input = 4 → x.zone ≤ 31 ∨ x.zone = 0xFF)), (13, w x.clear 0 1)]) ∧
  (∀ n, bad (.startDistrict n) = some none ∧ bad (.rollCall n) = some none) ∧
  (∀ n x a, bad (.assignAddress n x a) = first [(8, w x 1 0xFFFFFFFE), (12, w a 1 63)]) ∧
  (∀ n z k, bad (.clearTrip n z k) = first [(8, w z 0 31)]) ∧
  (∀ n i a b t, bad (.bumpTest n i a b t) = first [(8, w i 0 95), (9, w a 0 1500), (11, w b 0 1500), (13, w t 10 300)]) ∧
  (∀ n a skip, bad (.selfCheck n a skip) = first [(8, w a 1 63), (9, w skip 0 15)]) ∧
  (∀ n i m g, bad (.calibrate n i m g) = first [(8, w i 0 95), (9, w m 0 1), (10, decide (m = 0 ∨ 1 ≤ g ∧ g ≤ 1500))]) ∧
  (∀ n i m a t, bad (.page n i m a t) = first
    [(8, w i 0 255), (9, w m 0 63), (10, w a 0 1), (11, decide (t = 0 ∨ 30 ≤ t ∧ t ≤ 900))]) ∧
  (∀ n i a, bad (.answerCall n i a) = first [(8, w i 0 255), (9, w a 0 63)]) ∧
  (∀ n i c, bad (.commandVehicle n i c) = first [(8, w i 0 23), (9, w c 0 3)]) ∧
  (∀ n z, bad (.blockZone n z) = first [(8, w z 0 31)] ∧ bad (.openZone n z) = first [(8, w z 0 31)]) ∧
  (∀ n d r, bad (.startEvacuation n d r) = first [(8, w d 0 1), (9, w r 0 255)]) ∧
  (∀ n k, bad (.declineEvacuation n k) = some none ∧ bad (.standDown n k) = some none) ∧
  (∀ n i, bad (.markAccounted n i) = first [(8, w i 0 255)]) ∧
  (∀ n v, bad (.setClock n v) = some none) ∧ (∀ n k, bad (.cancel n k) = first [(8, w k 0 31)]) ∧
  ∀ (s : State) (k : TargetKind) (x : Nat), s.targetBusy k x = true ↔
    (∃ e ∈ s.orders.inFlight,
      (e.target = k ∧ (e.index = x ∨ k = .loop)) ∨
      (k = .channel ∧ e.target = .head ∧ (s.channel? x).map (·.head) = some e.index) ∨
      (k = .head ∧ e.target = .channel ∧ (s.channel? e.index).map (·.head) = some x)) ∨
    (k = .loop ∧ s.loop.rollCall.isSome = true)

/-- A visit that finds an order makes the order's command; a code that is not in the catalogue ends UNKNOWN_ORDER, with nothing else changed
(R10 to R12). -/
def Obligations.ScanVisitTakesTheOrder : Prop :=
  ∀ (n : Nat) (s : State),
    (∀ i, Posted s n i → exec .scanVisit s = exec i s) ∧
    (Awake s → s.boardCanonical → s.takeable n = true → s.decodeOrder n = none →
      ∃ t, exec .scanVisit s = .next t ∧ Shows s t n .unknownOrder 0 [] ∧ Untouched s t n)

/-- SET CLOCK writes the mine clock and its summary field, and its result values are the old value (R176); beside them its slot and the
step's news alone change. SET POLICY writes each policy field that is not all ones, and its result values are the mask of the changed fields
(R180); where the poll period and lost time stay and the ceiling is not lowered, nothing else changes beside what Leaves leaves open: the
units judge levels, commands, choices and play by the new fields. -/
def Obligations.SetClockAndSetPolicy : Prop :=
  ∀ (n : Nat) (s : State),
    (∀ v : Nat, Posted s n (.setClock n v) →
      ∃ t, exec (.setClock n v) s = .next t ∧ Shows s t n .ok 0 (leBytes 6 s.supply.mineClock.toNat) ∧
        Spares { s with supply.mineClock := BitVec.ofNat 48 v, port.shownMine := BitVec.ofNat 48 v } t n) ∧
    ∀ a : PolicyArgs, Posted s n (.setPolicy n a) → policyBad a = none →
    let p := s.supply.policy
    let q : Policy :=
      { pollPeriod := if a.pollPeriod = 0xFFFF then p.pollPeriod else a.pollPeriod
        tripCeiling := if a.tripCeiling = 0xFFFF then p.tripCeiling else a.tripCeiling
        blindGrace := if a.blindGrace = 0xFFFF then p.blindGrace else a.blindGrace
        lostTime := if a.lostTime = 0xFFFF then p.lostTime else a.lostTime
        onboardLimit := if a.onboardLimit = 0xFFFF then p.onboardLimit else a.onboardLimit
        zeroTolerance := if a.zeroTolerance = 0xFFFF then p.zeroTolerance else a.zeroTolerance
        evacPolicy := if a.evacPolicy = 0xFF then p.evacPolicy else EvacPolicy.ofCode a.evacPolicy
        askWindow := if a.askWindow = 0xFFFF then p.askWindow else a.askWindow
        musterDeadline := if a.musterDeadline = 0xFF then p.musterDeadline else a.musterDeadline
        patEvacuate := if a.patEvacuate = 0xFF then p.patEvacuate else a.patEvacuate
        patDrill := if a.patDrill = 0xFF then p.patDrill else a.patDrill
        patTrip := if a.patTrip = 0xFF then p.patTrip else a.patTrip
        patAlarm := if a.patAlarm = 0xFF then p.patAlarm else a.patAlarm
        patWarn := if a.patWarn = 0xFF then p.patWarn else a.patWarn
        patFault := if a.patFault = 0xFF then p.patFault else a.patFault }
    ∃ t, exec (.setPolicy n a) s = .next t ∧ Shows s t n .ok 0 (leBytes 2 (p.changes q)) ∧ t.supply.policy = q ∧
      (q.pollPeriod = p.pollPeriod → p.tripCeiling ≤ q.tripCeiling → q.lostTime = p.lostTime →
        Leaves { s with supply.policy := q } t n)

/-- SET HEAD writes the head's record; its link state becomes UNKNOWN, unless it was configured with the same kind and serial, and a CLASH
stays. An address that was not configured starts with no missed round, an empty quality history, the preferred end A and a clear toggle; a
change of kind or serial empties the history, which clears POOR_LINK, and with neither change the history stays (R35, R38, R42). RETIRE HEAD
makes the head UNCONFIGURED, unless it is in CLASH, empties its history, abandons the exchange with it in progress, a roll call's and an
address assignment's too, and passes it over for the rest of the round (R38, R43). No other head changes; beside them, what Leaves leaves
open. -/
def Obligations.HeadOrdersWriteTheRecord : Prop :=
  ∀ (n : Nat) (s : State),
    (∀ x : HeadArgs, Posted s n (.setHead n x) → headBad x = none →
      let h := s.head x.address
      let kind := HeadKind.ofCode x.kind
      (h.configured = true → h.kind = kind ∧ h.serial = some x.serial ∨ s.testOn x.address = false) →
      s.headAtPosition x.address x.position = none →
      (kind = .reader → s.countKind x.address .reader < 24) → (kind = .refuge → s.countKind x.address .refuge < 4) →
      ∃ t, exec (.setHead n x) s = .next t ∧ Shows s t n .ok 0 [] ∧
        (let h' := t.head x.address
         h'.configured = true ∧ h'.kind = kind ∧ h'.position = x.position ∧ h'.window = x.window ∧
         h'.serial = some x.serial ∧ h'.count = (if kind = .gas ∨ kind = .relay then x.count else 0) ∧
         h'.link = (if h.configured = true ∧ h.kind = kind ∧ h.serial = some x.serial then h.link
           else if h.link = .clash then .clash else .unknown)) ∧
        (let h' := t.head x.address
         let inner := t.headInner x.address
         (h.configured = false → h'.missed = 0 ∧ h'.preferred = .a ∧ inner.toggle = false) ∧
         (h.configured = false ∨ h.kind ≠ kind ∨ h.serial ≠ some x.serial →
           inner.history = [] ∧ h'.newest = none ∧ h'.nonGood = 0 ∧ h'.poorLink = false) ∧
         (h.configured = true → h.kind = kind → h.serial = some x.serial →
           inner = s.headInner x.address ∧ h'.newest = h.newest ∧ h'.nonGood = h.nonGood ∧ h'.poorLink = h.poorLink ∧
           h'.missed = h.missed ∧ h'.preferred = h.preferred)) ∧
        (∀ b, b ≠ x.address → t.head b = s.head b) ∧
        Leaves { s with
          loop := { s.loop with heads := t.loop.heads, inner := t.loop.inner, continuation := t.loop.continuation } } t n) ∧
    (∀ a : Nat, Posted s n (.retireHead n a) → 1 ≤ a → a ≤ 63 → (s.head a).configured = true → s.testOn a = false →
      ∃ t, exec (.retireHead n a) s = .next t ∧ Shows s t n .ok 0 [] ∧
        (t.head a).configured = false ∧
        (t.head a).link = (if (s.head a).link = .clash then .clash else .unconfigured) ∧
        (∀ b, b ≠ a → t.head b = s.head b) ∧
        (t.loop.exchange = s.loop.exchange.map fun ex =>
          if ex.purpose ≠ .marker ∧ ex.purpose ≠ .assignFrame ∧ ex.frame.address = a then { ex with abandoned := true } else ex) ∧
        (t.headInner a).history = [] ∧ (t.head a).newest = none ∧ (t.head a).nonGood = 0 ∧ (t.head a).poorLink = false ∧
        (t.head a).identified = (s.head a).identified ∧ (t.head a).finding = (s.head a).finding ∧
        t.loop.round = (s.loop.round.map fun r => { r with due := r.due.filter fun b => !decide (b = a) }) ∧
        Leaves { s with
          loop := { s.loop with
            heads := t.loop.heads, inner := t.loop.inner, continuation := t.loop.continuation, exchange := t.loop.exchange
            round := t.loop.round } }
          t n)

/-- SET CHANNEL with op SET writes the channel's configuration, the thresholds of a CH4 channel held to the trip ceiling and the hysteresis
to a tenth of full scale, OK_CLAMPED where one changed; with op REMOVE it takes the channel out of use (R51 to R53). The channel is
restarted, FAULT LINK with no window, mean, last raw, value or level, where it was not in use, was not NORMAL or SETTLING, or its kind,
head, slot, Z, S or G changes; otherwise it keeps its value, its window is cut to W, oldest values first, and mean, state and level are
formed anew (R52, R62, R65). No other channel's configuration changes; beside the Air Evaluator, what Leaves leaves open, for the units
follow the change. -/
def Obligations.SetChannelWritesTheChannel : Prop :=
  ∀ (n : Nat) (x : ChannelArgs) (s : State), Posted s n (.setChannel n x) → channelBad x = none →
    let k := ChannelKind.ofCode x.kind
    let recordHead := ((s.channel? x.index).map (·.head)).toList
    let ceiling := s.supply.policy.tripCeiling
    (x.op ≠ 0 → s.heldInFlight x.index (x.head :: recordHead) = false → x.zero + 64 ≤ x.span →
      thresholdsOrdered k x.l1 x.l2 x.l3 = true →
      (s.air.channels.find? fun p => decide (p.2.head = x.head) && decide (p.2.slot = x.slot) && !decide (p.1 = x.index)) = none →
      ((s.head x.head).configured = true → (s.head x.head).kind = .refuge → (x.slot = 0 ∧ k = .o2) ∨ (x.slot = 1 ∧ k = .co)) →
      ∃ t c r q, exec (.setChannel n x) s = .next t ∧ Shows s t n r q [] ∧ t.channel? x.index = some c ∧
        c.kind = k ∧ c.head = x.head ∧ c.slot = x.slot ∧ c.zone = (if x.zone = 0xFF then none else some x.zone) ∧
        c.zero = x.zero ∧ c.span = x.span ∧ c.gas = x.gas ∧ c.window = x.window ∧
        c.l1 = (if k = .ch4 then min x.l1 ceiling else x.l1) ∧ c.l2 = (if k = .ch4 then min x.l2 ceiling else x.l2) ∧
        c.l3 = (if k = .ch4 then min x.l3 ceiling else x.l3) ∧ c.hyst = min x.hyst (k.fullScale / 10) ∧
        (r = (if c.l1 = x.l1 ∧ c.l2 = x.l2 ∧ c.l3 = x.l3 ∧ c.hyst = x.hyst then .ok else .okClamped)) ∧
        q = (if c.l1 ≠ x.l1 then 20 else if c.l2 ≠ x.l2 then 22 else if c.l3 ≠ x.l3 then 24
          else if c.hyst ≠ x.hyst then 26 else 0) ∧
        (lookupAt s.tests.bumps x.index = none → lookupAt s.tests.cals x.index = none →
          let keeps (o : Channel) : Prop := (o.state = .normal ∨ o.state = .settling) ∧ o.kind = k ∧ o.head = x.head ∧
            o.slot = x.slot ∧ o.zero = x.zero ∧ o.span = x.span ∧ o.gas = x.gas
          ((∀ o, s.channel? x.index = some o → ¬keeps o) →
            c.state = .fault ∧ c.cause = some .link ∧ c.lastRaw = none ∧ c.v = 0 ∧ c.mean = none ∧ c.n = 0 ∧ c.level = 0 ∧
            c.overRange = false ∧ t.channelWindow x.index = []) ∧
          ∀ o, s.channel? x.index = some o → keeps o →
            let old := s.channelWindow x.index
            let w := old.drop (old.length - x.window)
            t.channelWindow x.index = w ∧ c.lastRaw = o.lastRaw ∧ c.v = o.v ∧ c.overRange = o.overRange ∧ c.cause = o.cause ∧
            c.n = w.length ∧ c.state = (if w.length = x.window then .normal else .settling) ∧
            (w = [] → c.mean = none ∧ c.level = o.level) ∧
            (w ≠ [] → c.mean = some ((w.foldl (· + ·) 0 + w.length / 2) / w.length) ∧
              c.level = c.evaluate o.level ((w.foldl (· + ·) 0 + w.length / 2) / w.length) o.v)) ∧
        (∀ j, j ≠ x.index → (t.channel? j).map Channel.conf = (s.channel? j).map Channel.conf) ∧
        Leaves { s with air := t.air } t n) ∧
    (x.op = 0 → s.heldInFlight x.index recordHead = false → (s.channel? x.index).isSome = true → s.tablesRising →
      ∃ t, exec (.setChannel n x) s = .next t ∧ Shows s t n .ok 0 [] ∧ t.channel? x.index = none ∧
        (∀ j, j ≠ x.index → (t.channel? j).map Channel.conf = (s.channel? j).map Channel.conf) ∧
        Leaves { s with air := t.air } t n)

/-- SET ZONE with op SET writes the zone's configuration, a zone that comes into use being open; with op REMOVE, in SETUP, the zone leaves
use. No other zone's configuration changes (R73, R74). SET REFUGE with op SET writes the refuge's zone, panel, capacity and channels, and a
refuge whose panel is new has its panel's fields at their reset values; with op REMOVE it leaves use (R142). What the units judge anew with
the change, Leaves and the outline leave open. -/
def Obligations.ZoneAndRefugeOrders : Prop :=
  (∀ (n : Nat) (x : ZoneArgs) (s : State), Posted s n (.setZone n x) → zoneBad x = none →
    let r := s.zoneRec x.zone
    let ns := x.neighbours.take x.nNeighbours
    let rs := x.readers.take x.nReaders
    let ls := x.relays.take x.nRelays
    let ss := x.sounders.take x.nSounders
    (x.op ≠ 0 → (s.running = true → r.inUse = true → r.kind = ZoneKind.ofCode x.kind) → ¬ns.contains x.zone →
      namesTwice ns = false → namesTwice rs = false → namesTwice ss = false → namesTwice ls = false →
      (x.powered = 0 → ls = []) → s.namedElsewhere x.zone rs ss ls = none →
      (s.running = true → s.symmetricWith x.zone ns = true) →
      ∃ t, exec (.setZone n x) s = .next t ∧ Shows s t n .ok 0 [] ∧
        (t.zoneRec x.zone).conf = { Zone.blank with
          inUse := true, kind := ZoneKind.ofCode x.kind, powered := decide (x.powered = 1), vote := x.vote, neighbours := ns
          readers := rs, relays := ls, sounders := ss, blocked := r.inUse && r.blocked } ∧
        (∀ y, y ≠ x.zone → (t.zoneRec y).conf = (s.zoneRec y).conf) ∧
        (∀ j, (t.channel? j).map Channel.conf = (s.channel? j).map Channel.conf) ∧
        t.outline = ({ s with zone.circuits := t.zone.circuits } : State).outline) ∧
    (x.op = 0 → r.inUse = true → s.running = false →
      ∃ t, exec (.setZone n x) s = .next t ∧ Shows s t n .ok 0 [] ∧ (t.zoneRec x.zone).inUse = false ∧
        (∀ y, y ≠ x.zone → (t.zoneRec y).conf = (s.zoneRec y).conf) ∧
        (∀ j, (t.channel? j).map Channel.conf = (s.channel? j).map Channel.conf) ∧
        t.outline = ({ s with zone.circuits := t.zone.circuits } : State).outline)) ∧
  ∀ (n : Nat) (x : RefugeArgs) (s : State), Posted s n (.setRefuge n x) → refugeBad x = none →
    (x.op ≠ 0 → x.o2 ≠ x.co → (s.otherRefuge x.index fun r => decide (r.zone = x.zone)) = none →
      (s.otherRefuge x.index fun r => decide (r.panel = x.panel)) = none →
      ∃ t r, exec (.setRefuge n x) s = .next t ∧ Shows s t n .ok 0 [] ∧ t.refuge? x.index = some r ∧
        r.zone = x.zone ∧ r.panel = x.panel ∧ r.capacity = x.capacity ∧ r.o2 = x.o2 ∧ r.co = x.co ∧
        ((s.refuge? x.index).map (·.panel) ≠ some x.panel →
          r.door = .closed ∧ r.inCount = 0 ∧ r.outCount = 0 ∧ r.doorOcc = 0 ∧ r.battery = .ok ∧ r.pulled = false) ∧
        (∀ j, j ≠ x.index → (t.refuge? j).map Refuge.place = (s.refuge? j).map Refuge.place) ∧
        Leaves { s with route.refuges := t.route.refuges } t n) ∧
    (x.op = 0 → (s.refuge? x.index).isSome = true → s.tablesRising →
      ∃ t, exec (.setRefuge n x) s = .next t ∧ Shows s t n .ok 0 [] ∧ t.refuge? x.index = none ∧
        (∀ j, j ≠ x.index → (t.refuge? j).map Refuge.place = (s.refuge? j).map Refuge.place) ∧
        Leaves { s with route.refuges := t.route.refuges } t n)

/-- SET ROSTER ENTRY with op SET brings an entry into use with its tag and person number, restarts one that holds another tag, or changes
the person number alone; with op REMOVE the entry leaves use (R109). SET VEHICLE does the same for a vehicle, and a vehicle that holds the
tag takes the number and drive and keeps every other field but those judged from others (R126). COMMAND VEHICLE sets the host component, and
the effective command is the strongest component; its result values are the effective and the acknowledged command (R130, R132); of an entry
not in use it ends NO_TARGET. Where Leaves is named, what it leaves open may change with the entry. -/
def Obligations.RosterAndVehicleOrders : Prop :=
  ∀ (n : Nat) (s : State),
    (∀ i op tag person : Nat, Posted s n (.setRosterEntry n i op tag person) → rosterBad i op tag person = none →
      (∀ e ∈ s.orders.inFlight, ¬(e.target = .roster ∧ e.index = i)) →
      (op ≠ 0 → (s.people.roster.find? fun p => decide (p.2.tag = tag) && !decide (p.1 = i)) = none →
        ((s.miner? i).map (·.tag) ≠ some tag →
          ∃ t m, exec (.setRosterEntry n i op tag person) s = .next t ∧ Shows s t n .ok 0 [] ∧ t.miner? i = some m ∧
            m.tag = tag ∧ m.person = person ∧ m.state = .unseen ∧ m.zone = none ∧ m.lastReader = none ∧ m.call = none ∧
            m.lastSeen = none ∧ m.lastSeq = none ∧ m.pageTake = none ∧ m.batteryLow = false ∧
            (∀ j, j ≠ i → (t.miner? j).map Miner.place = (s.miner? j).map Miner.place) ∧
            Leaves { s with people.roster := t.people.roster } t n) ∧
        (∀ m, s.miner? i = some m → m.tag = tag →
          ∃ t, exec (.setRosterEntry n i op tag person) s = .next t ∧ Shows s t n .ok 0 [] ∧
            t.miner? i = some { m with person := person } ∧ (∀ j, j ≠ i → t.miner? j = s.miner? j) ∧
            Spares { s with people.roster := t.people.roster } t n)) ∧
      (op = 0 → (s.miner? i).isSome = true → s.tablesRising →
        ∃ t, exec (.setRosterEntry n i op tag person) s = .next t ∧ Shows s t n .ok 0 [] ∧ t.miner? i = none ∧
          (∀ j, j ≠ i → (t.miner? j).map Miner.place = (s.miner? j).map Miner.place) ∧
          Leaves { s with people.roster := t.people.roster } t n)) ∧
    (∀ x : VehicleArgs, Posted s n (.setVehicle n x) → vehicleBad x = none →
      (x.op ≠ 0 → (s.haul.vehicles.find? fun p => decide (p.2.tag = x.tag) && !decide (p.1 = x.index)) = none →
        ∃ t v, exec (.setVehicle n x) s = .next t ∧ Shows s t n .ok 0 [] ∧ t.vehicle? x.index = some v ∧
          v.tag = x.tag ∧ v.number = x.number ∧ v.drive = (if x.drive = 0 then .diesel else .electric) ∧
          (∀ w, s.vehicle? x.index = some w → w.tag = x.tag →
            v.place = { w.place with number := x.number, drive := if x.drive = 0 then .diesel else .electric }) ∧
          ((s.vehicle? x.index).map (·.tag) ≠ some x.tag →
            v.host = .none ∧ v.state = .unseen ∧ v.zone = none ∧ v.lastReader = none ∧ v.lastSeen = none ∧ v.speed = 0 ∧
            v.moving = false ∧ v.onboard = 0 ∧ v.acked = .none ∧ v.crowded = false ∧ v.unacked = 0) ∧
          (∀ j, j ≠ x.index → (t.vehicle? j).map Vehicle.place = (s.vehicle? j).map Vehicle.place) ∧
          Leaves { s with haul.vehicles := t.haul.vehicles } t n) ∧
      (x.op = 0 → (s.vehicle? x.index).isSome = true → s.tablesRising →
        ∃ t, exec (.setVehicle n x) s = .next t ∧ Shows s t n .ok 0 [] ∧ t.vehicle? x.index = none ∧
          (∀ j, j ≠ x.index → (t.vehicle? j).map Vehicle.place = (s.vehicle? j).map Vehicle.place) ∧
          Leaves { s with haul.vehicles := t.haul.vehicles } t n)) ∧
    (∀ i c : Nat, s.running = true →
      Refuses n (.commandVehicle n i c) s [((s.vehicle? i).isNone, .noTarget, 0, [])]) ∧
    (∀ (i c : Nat) (v : Vehicle), Posted s n (.commandVehicle n i c) → s.running = true → i ≤ 23 → c ≤ 3 → s.vehicle? i = some v →
      ∃ t w, exec (.commandVehicle n i c) s = .next t ∧ t.vehicle? i = some w ∧
        Shows s t n .ok 0 [BitVec.ofNat 8 w.effective.ctorIdx, BitVec.ofNat 8 w.acked.ctorIdx] ∧
        w.host.ctorIdx = c ∧ w.acked = v.acked ∧ w.place = { v.place with host := w.host } ∧
        (∀ k ∈ [w.host, w.zoneCmd, w.encounterCmd, w.evacCmd, w.onboardCmd, w.crowdedCmd], k.ctorIdx ≤ w.effective.ctorIdx) ∧
        w.effective ∈ [w.host, w.zoneCmd, w.encounterCmd, w.evacCmd, w.onboardCmd, w.crowdedCmd] ∧
        (∀ j, j ≠ i → t.vehicle? j = s.vehicle? j) ∧
        Spares { s with haul.vehicles := t.haul.vehicles, people.conditions := t.people.conditions, people.lists := t.people.lists }
          t n)

/-- SET PATTERN writes one pattern, an on-time of 0 becoming 1 with OK_CLAMPED; where a value changes, the sequence bit of every zone whose
choice names it is inverted, once for a zone, the play that uses it may start anew, and in RESERVE rates every ONLINE sounder head whose
pattern bytes so change is marked for an interposed poll (R33, R167 to R169). SET INPUT writes one input's configuration, clears its latch
where asked or where its configuration changes, and forms its status; what Leaves leaves open, the status's followers judge (R174). That an
active status is shown as 1 is the model's choice (log entry 61). -/
def Obligations.PatternAndInputOrders : Prop :=
  ∀ (n : Nat) (s : State),
    (∀ x : PatternArgs, Posted s n (.setPattern n x) → patternBad x = none →
      ∃ t, exec (.setPattern n x) s = .next t ∧
        Shows s t n (if x.onTime = 0 then .okClamped else .ok) (if x.onTime = 0 then 9 else 0) [] ∧
        t.pattern x.index = { onTime := max 1 x.onTime, offTime := x.offTime, duty := x.duty, repeats := x.repeats } ∧
        (∀ j, j ≠ x.index → t.pattern j = s.pattern j) ∧
        t.alarm = { s.alarm with patterns := t.alarm.patterns, choices := t.alarm.choices, play := t.alarm.play } ∧
        (s.alarm.play.pattern ≠ some x.index → t.alarm.play = s.alarm.play) ∧
        (∀ z, (t.choice z).seq =
          ((s.choice z).seq != ((s.choice z).pattern == some x.index && decide (t.pattern x.index ≠ s.pattern x.index)))) ∧
        (risingFrom 0 s.loop.heads = true → MarksFollow s t) ∧
        Spares { s with alarm := t.alarm, loop.marks := t.loop.marks } t n) ∧
    (∀ x : InputArgs, Posted s n (.setInput n x) → inputBad x = none →
      ∃ t, exec (.setInput n x) s = .next t ∧
        (let i := s.input x.input
         let j := t.input x.input
         j.raw = i.raw ∧ j.edge = decide (x.mode = 1) ∧ j.activeLow = decide (x.polarity = 1) ∧
         j.enabled = decide (x.enable = 1) ∧
         j.latch = (i.latch && decide (x.clear ≠ 1 ∧ i.edge = j.edge ∧ i.activeLow = j.activeLow ∧ i.enabled = j.enabled)) ∧
         j.status = (if j.enabled then (if j.edge then j.latch else j.raw != j.activeLow) else decide (x.input = 2)) ∧
         Shows s t n .ok 0 [BitVec.ofNat 8 j.raw.toNat, BitVec.ofNat 8 j.status.toNat]) ∧
        (∀ m, 1 ≤ m → m ≤ 4 → m ≠ x.input → t.input m = s.input m) ∧
        t.supply.in4Zone = (if x.input = 4 then (if x.zone = 0xFF then none else some x.zone) else s.supply.in4Zone) ∧
        Leaves { (s.putInput x.input (t.input x.input)) with
          supply.in4Zone := t.supply.in4Zone, supply.mode := t.supply.mode } t n)

/-- START DISTRICT in SETUP makes the eight checks of R178 in order; the first that fails ends it BAD_SETUP with the check's number, its
item, the lowest one that fails, for checks 3, 5 and 6 the model's choice (log entry 72), and for checks 1 and 4 the neighbour or head, the
first in list order. Where every check passes the phase becomes RUNNING, every zone whose latch is set is TRIPPED, and a retained evacuation
is resumed in ALERTING (R89, R164); the first result value is the number of zones whose latch is set after the entry's evaluations, which is
inferred (log entry 35); what Leaves leaves open, the units judge. In RUNNING it ends NOT_NOW. -/
def Obligations.StartDistrictEntersRunning : Prop :=
  ∀ s : State,
    let used (z : Nat) : Prop := (s.zoneRec z).inUse = true
    let isHead (k : HeadKind) (a : Nat) : Prop := (s.head a).configured = true ∧ (s.head a).kind = k
    let listsBack (z b : Nat) : Prop := used b ∧ z ∈ (s.zoneRec b).neighbours
    let named (z : Nat) : List (HeadKind × Nat × Nat) :=
      (s.zoneRec z).readers.map (fun a => (HeadKind.reader, a, 0)) ++ (s.zoneRec z).sounders.map (fun a => (HeadKind.sounder, a, 0))
        ++ (s.zoneRec z).relays.map (fun p => (HeadKind.relay, p.1, p.2))
    let fits (x : HeadKind × Nat × Nat) : Prop := isHead x.1 x.2.1 ∧ (x.1 = .relay → x.2.2 < (s.head x.2.1).count)
    let attached (c : Channel) : Prop :=
      (isHead .gas c.head ∧ c.slot < (s.head c.head).count) ∨
      (isHead .refuge c.head ∧ (c.slot = 0 ∧ c.kind = .o2 ∨ c.slot = 1 ∧ c.kind = .co))
    let names (i panel : Nat) (k : ChannelKind) : Prop := ∃ c, s.channel? i = some c ∧ c.head = panel ∧ c.kind = k
    let fails (check item extra : Nat) : Prop :=
      (check = 1 ∧ used item ∧ ∃ before after, (s.zoneRec item).neighbours = before ++ extra :: after ∧
        (∀ b ∈ before, listsBack item b) ∧ ¬listsBack item extra) ∨
      (check = 2 ∧ extra = 0 ∧ ∃ c, s.channel? item = some c ∧ ¬attached c) ∨
      (check = 3 ∧ extra = 0 ∧ used item ∧ (s.zoneRec item).powered = true ∧
        ∀ i c, s.channel? i = some c → c.zone = some item → c.kind ≠ .ch4) ∨
      (check = 4 ∧ used item ∧ ∃ before x after, named item = before ++ x :: after ∧ (∀ y ∈ before, fits y) ∧ ¬fits x ∧ x.2.1 = extra) ∨
      (check = 5 ∧ extra = 0 ∧ ∃ r, s.refuge? item = some r ∧
        ¬(isHead .refuge r.panel ∧ used r.zone ∧ (s.zoneRec r.zone).kind = .refuge)) ∨
      (check = 6 ∧ extra = 0 ∧ isHead .reader item ∧ ∀ z, used z → item ∉ (s.zoneRec z).readers) ∨
      (check = 7 ∧ extra = 0 ∧ item = s.supply.in4Zone.getD 0xFF ∧ s.supply.in4.enabled = true ∧
        ∀ z, s.supply.in4Zone = some z → ¬used z) ∨
      (check = 8 ∧ extra = 0 ∧ ∃ r, s.refuge? item = some r ∧ ¬(names r.o2 r.panel .o2 ∧ names r.co r.panel .co))
    (s.tablesRising → risingFrom 0 s.zone.zones = true → risingFrom 0 s.loop.heads = true →
      (s.setupFault = none ↔ ∀ check item extra, ¬fails check item extra) ∧
      ∀ check item extra, s.setupFault = some (check, item, extra) →
        fails check item extra ∧ (∀ c i e, c < check → ¬fails c i e) ∧ ∀ i e, i < item → ¬fails check i e) ∧
    ∀ n : Nat, Posted s n (.startDistrict n) →
      (s.running = false → s.setupFault = none →
        ∃ t, exec (.startDistrict n) s = .next t ∧
          Shows s t n .ok 0
            ([BitVec.ofNat 8 (s.beginTake n).enterRunning.supply.retained.latches.length,
              BitVec.ofNat 8 s.supply.retained.evacActive.toNat]
            ++ leBytes 2 s.supply.retained.warmCount ++ [BitVec.ofNat 8 s.supply.retained.cause.ctorIdx]) ∧
          t.supply.phase = .running ∧ (∀ z, s.latched z = true → (t.zoneRec z).trip = .tripped ∧ t.latched z = true) ∧
          (s.supply.retained.evacActive = true → t.evac.state = .alerting) ∧
          Leaves { s with supply.phase := .running } t n) ∧
      (∀ c item extra, s.running = false → s.setupFault = some (c, item, extra) →
        ∃ t, exec (.startDistrict n) s = .next t ∧
          Shows s t n .badSetup c (leBytes 2 item ++ [BitVec.ofNat 8 extra]) ∧ Untouched s t n) ∧
      (s.running = true → ∃ t, exec (.startDistrict n) s = .next t ∧ Shows s t n .notNow 1 [] ∧ Untouched s t n)

/-- ROLL CALL and ASSIGN ADDRESS, with no other order of the loop in flight and no roll call running, are entered in the in-flight list and
begin with the next round; beside their slot, the list and the loop's own record of them only the step's news changes (R14, R44, R47). The
index an entry shows for the LOOP target, 0, is the model's choice (log entry 44). An ASSIGN ADDRESS whose target is ONLINE with another
identified serial ends BUSY (R47). -/
def Obligations.LoopOrdersEnter : Prop :=
  ∀ (n : Nat) (s : State), s.loop.rollCall = none → (∀ e ∈ s.orders.inFlight, e.target ≠ .loop) →
    s.orders.inFlight.length < 8 →
    (Posted s n (.rollCall n) →
      ∃ t, exec (.rollCall n) s = .next t ∧ InFlightNow s t n 0x10 .loop 0 ∧
        Spares { s with
          loop.rollCall := some { automatic := false, begun := false, address := 1, tries := [] }
          orders.inFlight := t.orders.inFlight } t n) ∧
    (∀ serial target : Nat, Posted s n (.assignAddress n serial target) → 1 ≤ serial → serial ≤ 0xFFFFFFFE → 1 ≤ target →
      target ≤ 63 →
      ((s.head target).link ≠ .online ∨ (s.head target).identified = none ∨ (s.head target).identified = some serial) →
      ∃ t, exec (.assignAddress n serial target) s = .next t ∧ InFlightNow s t n 0x11 .loop 0 ∧
        Spares { s with
          loop.assignment := some { serial := serial, target := target, begun := false, rounds := 0 }
          orders.inFlight := t.orders.inFlight } t n) ∧
    ∀ serial target : Nat, Refuses n (.assignAddress n serial target) s
      [(decide ((s.head target).link = .online ∧ (s.head target).identified ≠ none ∧ (s.head target).identified ≠ some serial),
        .busy, 0, [])]

/-- CLEAR TRIP is refused by the first of the checks of R85 that fails: the latch clear, the evacuation machine not QUIET, IN4 active with
an EXTERNAL cause, a powered zone NOT_COVERED, gas at level 1 or above. Under the conditions of R85 it ends OK; and where no other trip is
called for at once, the latch is clear and the zone is no longer TRIPPED. BLOCK ZONE sets the BLOCKED flag of a zone in use and OPEN ZONE
clears it; no other configuration changes, and their result values are the zone's passable and evac-gas flags as its evaluation leaves them
(R86, R147); of a zone not in use they end NO_TARGET. What the outline and Leaves leave open, the units judge. -/
def Obligations.ZoneServiceOrders : Prop :=
  (∀ (n z check : Nat) (s : State), Posted s n (.clearTrip n z check) → s.running = true → z ≤ 31 →
    crc8 [0x20#8, BitVec.ofNat 8 z] = BitVec.ofNat 8 check → s.latched z = true → s.evac.state = .quiet →
    ¬((s.zoneRec z).cause = some .external ∧ s.supply.in4.status = true) →
    ((s.zoneRec z).powered = true → (s.zoneRec z).covered = true) →
    (∀ c ∈ s.zoneChannels z, c.kind = .ch4 → s.healthy c = true → c.level = 0) →
    ∃ t, exec (.clearTrip n z check) s = .next t ∧ Shows s t n .ok 0 [] ∧
      (∀ y, y ≠ z → s.latched y = true → t.latched y = true) ∧ t.outline = s.outline ∧
      (∀ y, (t.zoneRec y).conf = (s.zoneRec y).conf) ∧
      (s.relaySafe → s.externalTrip z = false → s.noTests → 1 ≤ (s.zoneRec z).vote →
        t.latched z = false ∧ (t.zoneRec z).trip ≠ .tripped)) ∧
  (∀ (n z check : Nat) (s : State), s.running = true → crc8 [0x20#8, BitVec.ofNat 8 z] = BitVec.ofNat 8 check →
    let r := s.zoneRec z
    Refuses n (.clearTrip n z check) s
      [(!s.latched z, .noTarget, 0, []), (decide (s.evac.state ≠ .quiet), .notNow, 1, []),
       (decide (r.cause = some .external ∧ s.supply.in4.status = true), .notNow, 2, []),
       (decide (r.powered = true ∧ r.covered = false), .stillGas, 1, []),
       (s.air.channels.any fun p =>
         decide (p.2.zone = some z ∧ p.2.kind = .ch4 ∧ s.healthy p.2 = true ∧ 1 ≤ p.2.level), .stillGas, 2, [])]) ∧
  (∀ (n z : Nat) (s : State),
    Refuses n (.blockZone n z) s [(decide ((s.zoneRec z).inUse = false), .noTarget, 0, [])] ∧
    Refuses n (.openZone n z) s [(decide ((s.zoneRec z).inUse = false), .noTarget, 0, [])]) ∧
  ∀ (n z : Nat) (s : State), z ≤ 31 → (s.zoneRec z).inUse = true →
    let healthy (c : Channel) : Bool :=
      decide ((c.state = .normal ∨ c.state = .settling) ∧ (s.head c.head).configured = true ∧ (s.head c.head).link = .online)
    let vote (k : ChannelKind) : Bool :=
      let hs := s.air.channels.filter fun p => decide (p.2.zone = some z) && decide (p.2.kind = k) && healthy p.2
      decide (1 ≤ hs.length ∧ min (s.zoneRec z).vote hs.length ≤ (hs.filter fun p => decide (p.2.level = 3)).length)
    let gas : Bool := vote .co || vote .o2
    (Posted s n (.blockZone n z) →
      ∃ t, exec (.blockZone n z) s = .next t ∧ Shows s t n .ok 0 [0#8, if gas then 1#8 else 0#8] ∧
        (t.zoneRec z).conf = { (s.zoneRec z).conf with blocked := true } ∧
        (∀ y, y ≠ z → (t.zoneRec y).conf = (s.zoneRec y).conf) ∧
        Leaves { s with zone.zones := t.zone.zones } t n) ∧
    (Posted s n (.openZone n z) →
      ∃ t, exec (.openZone n z) s = .next t ∧
        Shows s t n .ok 0 [if gas then 0#8 else 1#8, if gas then 1#8 else 0#8] ∧
        (t.zoneRec z).conf = { (s.zoneRec z).conf with blocked := false } ∧
        (∀ y, y ≠ z → (t.zoneRec y).conf = (s.zoneRec y).conf) ∧
        Leaves { s with zone.zones := t.zone.zones } t n)

/-- BUMP TEST, CALIBRATE and SELF CHECK are refused by the first of their own checks that fails (R94, R98, R101), the last of them the
admission check: in zones whose relay command is CLOSED, in ascending number, and for the kinds in the order CH4, CO, O2, AIRVEL, the
healthy count that the taken channels would leave is less than the vote or the configured count, and the result values are the zone, the
kind and that count (R92); G is checked for SPAN alone, which is inferred (log entry 38). Admitted with cover to spare, in powered zones as
in others, while no other test is in flight: the order is in flight, the Test Unit holds the test, and the channels are in the test's state,
with no mean and level 0 (R65, R92, R94, R98, R101, R102). A SELF CHECK with every step skipped ends OK at once. Beside them the outline
leaves open what the units judge. -/
def Obligations.TestsBegin : Prop :=
  (∀ (n : Nat) (s : State), s.running = true → s.orders.inFlight.length < 8 →
    (∀ i c z, s.channel? i = some c → c.zone = some z → z ≤ 31) →
    let short (taken : List Nat) : List Check := (List.range 32).flatMap fun z =>
      [ChannelKind.ch4, .co, .o2, .airvel].map fun k =>
        let cs := (taken.filterMap s.channel?).filter fun c => decide (c.zone = some z ∧ c.kind = k)
        let h := ((s.zoneRec z).agg k).healthy - (cs.filter s.healthy).length
        (decide (cs ≠ [] ∧ (s.zoneRec z).closed = true ∧ h < min (s.zoneRec z).vote ((s.zoneRec z).agg k).configured),
          .notNow, 2, [BitVec.ofNat 8 z, BitVec.ofNat 8 k.ctorIdx, BitVec.ofNat 8 h])
    (∀ i a b w : Nat, s.targetBusy .channel i = false →
      Refuses n (.bumpTest n i a b w) s (match s.channel? i with
        | none => [(true, .noTarget, 0, [])]
        | some c =>
          [(decide (c.kind.fullScale < a), .badArgument, 9, []), (decide (c.kind.fullScale < b), .badArgument, 11, []),
           (decide (¬if c.kind.rising then a < b else b < a), .badArgument, 11, []), (!s.linked c, .linkLost, 0, []),
           (decide (c.state ≠ .normal ∧ c.state ≠ .settling), .notNow, 1, [])] ++ short [i])) ∧
    (∀ i mode gas : Nat, s.targetBusy .channel i = false →
      Refuses n (.calibrate n i mode gas) s (match s.channel? i with
        | none => [(true, .noTarget, 0, [])]
        | some c =>
          [(decide (mode = 1 ∧ c.kind.fullScale < gas), .badArgument, 10, []), (!s.linked c, .linkLost, 0, []),
           (decide (c.state = .recovery), .notNow, 1, [])] ++ short [i])) ∧
    ∀ a skip : Nat, s.targetBusy .head a = false →
      Refuses n (.selfCheck n a skip) s
        ([(!s.isKind a .gas, .noTarget, 0, []), (!s.headOnline a, .linkLost, 0, []),
          ((s.attachedTo a).any fun i => decide ((s.channel? i).map (·.state) = some .recovery), .notNow, 1, [])]
          ++ if skip = 15 then [] else short (s.attachedTo a))) ∧
  ∀ (n : Nat) (s : State), s.running = true → s.orders.inFlight.length < 8 → s.noTests →
    (∀ (i a b w : Nat) (c : Channel), Posted s n (.bumpTest n i a b w) → i ≤ 95 → a ≤ c.kind.fullScale → b ≤ c.kind.fullScale →
      10 ≤ w → w ≤ 300 → s.channel? i = some c → (if c.kind.rising then a < b else b < a) → s.linked c = true →
      c.state.healthy = true → s.targetBusy .channel i = false → s.coverSpare [i] →
      ∃ t d, exec (.bumpTest n i a b w) s = .next t ∧ InFlightNow s t n 0x21 .channel i ∧ t.channel? i = some d ∧
        d.state = .bump ∧ d.mean = none ∧ d.n = 0 ∧ d.level = 0 ∧ d.conf = c.conf ∧
        lookupAt t.tests.bumps i = some {
          a := a, b := b, start := s.now, length := w * 1000, timeAtA := none
          extreme := if c.kind.rising then 0 else c.kind.fullScale, highest := 0 } ∧
        t.outline = s.outline ∧ (∀ j, j ≠ i → t.channel? j = s.channel? j)) ∧
    (∀ (i mode gas : Nat) (c : Channel), Posted s n (.calibrate n i mode gas) → i ≤ 95 → mode ≤ 1 →
      (mode = 1 → 1 ≤ gas ∧ gas ≤ c.kind.fullScale) → s.channel? i = some c → s.linked c = true → c.state ≠ .recovery →
      s.targetBusy .channel i = false → s.coverSpare [i] →
      ∃ t d, exec (.calibrate n i mode gas) s = .next t ∧ InFlightNow s t n 0x23 .channel i ∧ t.channel? i = some d ∧
        d.state = .cal ∧ d.mean = none ∧ d.n = 0 ∧ d.level = 0 ∧ d.conf = c.conf ∧
        lookupAt t.tests.cals i = some { span := decide (mode = 1), gas := gas, samples := [] } ∧
        t.outline = s.outline ∧ (∀ j, j ≠ i → t.channel? j = s.channel? j)) ∧
    (∀ a skip : Nat, Posted s n (.selfCheck n a skip) → 1 ≤ a → a ≤ 63 → s.isKind a .gas = true → s.headOnline a = true →
      (∀ i ∈ s.attachedTo a, (s.channel? i).map (·.state) ≠ some .recovery) → s.targetBusy .head a = false →
      (skip ≤ 14 → s.coverSpare (s.attachedTo a) → s.tablesRising →
        ∃ t, exec (.selfCheck n a skip) s = .next t ∧ InFlightNow s t n 0x22 .head a ∧
          (∀ i ∈ s.attachedTo a, (t.channel? i).map (·.state) = some .selfcheck) ∧
          lookupAt t.tests.checks a = some { skip := skip, primed := false, step := none, timer := none, values := [] } ∧
          t.outline = s.outline) ∧
      (skip = 15 →
        ∃ t, exec (.selfCheck n a skip) s = .next t ∧ Shows s t n .ok 0 (List.replicate 8 0xFF#8) ∧ Spares s t n))

/-- PAGE of an entry not in use, UNSEEN or OUT ends NO_TARGET, and ANSWER CALL of an entry not in use or without a pending call ends
NO_TARGET with qualifier 1 or 2 (R115, R116). PAGE of a miner who is neither UNSEEN nor OUT is in flight with its page record, its page
fields and its PAGE condition (R116); ANSWER CALL clears the pending call, and its CALL_ANSWER condition stands (R115). Beside them the
step's news alone changes. A page still in flight at the end of its time ends TIMEOUT: its result values are the delivery count, the last
reader and the whole seconds since the take, truncated by the model's choice (log entry 70), and the entry's page fields are absent (R116,
R117, Table 6-1). -/
def Obligations.PagesAndCalls : Prop :=
  (∀ (n i : Nat) (m : Miner) (s : State), s.running = true → i ≤ 255 → s.miner? i = some m →
    (∀ message ack timeout : Nat, Posted s n (.page n i message ack timeout) → message ≤ 63 → ack ≤ 1 →
      (timeout = 0 ∨ 30 ≤ timeout ∧ timeout ≤ 900) → m.state ≠ .unseen → m.state ≠ .out →
      s.targetBusy .roster i = false → s.orders.inFlight.length < 8 →
      ∃ t c, exec (.page n i message ack timeout) s = .next t ∧ InFlightNow s t n 0x30 .roster i ∧
        lookupAt t.people.pages i = some {
          take := s.orders.takes + 1#16, message := message, ack := decide (ack = 1), start := s.now
          length := (if timeout = 0 then 120 else timeout) * 1000, deliveries := 0, reader := none } ∧
        t.miner? i = some { m with
          pageTake := some (s.orders.takes + 1#16).toNat, pageCode := some message, pageAck := some (decide (ack = 1)) } ∧
        t.condition? (.miner i) .page = some c ∧ c.code = message ∧ c.target = ack ∧
        (∀ j, j ≠ i → t.miner? j = s.miner? j ∧ lookupAt t.people.pages j = lookupAt s.people.pages j) ∧
        Spares { s with
          people.roster := t.people.roster, people.pages := t.people.pages, people.conditions := t.people.conditions
          people.lists := t.people.lists, orders.inFlight := t.orders.inFlight } t n) ∧
    (∀ (answer : Nat) (c : CallCode), Posted s n (.answerCall n i answer) → answer ≤ 63 → m.call = some c →
      ∃ t d, exec (.answerCall n i answer) s = .next t ∧ Shows s t n .ok 0 [BitVec.ofNat 8 (c.ctorIdx + 1)] ∧
        t.miner? i = some { m with call := none, callTime := none } ∧
        t.condition? (.miner i) .callAnswer = some d ∧ d.code = answer ∧
        (∀ j, j ≠ i → t.miner? j = s.miner? j) ∧
        Spares { s with
          people.roster := t.people.roster, people.conditions := t.people.conditions, people.lists := t.people.lists } t n)) ∧
  (∀ (n i : Nat) (s : State), s.running = true →
    (∀ message ack timeout : Nat, s.targetBusy .roster i = false → s.orders.inFlight.length < 8 →
      Refuses n (.page n i message ack timeout) s
        [(decide ((s.miner? i).map (·.state) ∈ [none, some .unseen, some .out]), .noTarget, 0, [])]) ∧
    ∀ answer : Nat, Refuses n (.answerCall n i answer) s
      [((s.miner? i).isNone, .noTarget, 1, []), (((s.miner? i).bind (·.call)).isNone, .noTarget, 2, [])]) ∧
  ∀ (i : Nat) (p : PageRec) (m : Miner) (e : InFlight) (s : State), Awake s → lookupAt s.people.pages i = some p →
    s.due p.start p.length = true → s.miner? i = some m → Waiting s e 0x30 .roster i → s.tablesRising →
    ∃ t, exec (.pageTimeout i) s = .next t ∧
      EndShown s t e .timeout 0 ([BitVec.ofNat 8 p.deliveries, BitVec.ofNat 8 (p.reader.getD 0xFF)] ++
        leBytes 2 (elapsed s.now p.start / 1000)) ∧
      t.miner? i = some { m with pageTake := none, pageCode := none, pageAck := none } ∧
      lookupAt t.people.pages i = none ∧ t.condition? (.miner i) .page = none ∧ (∀ j, j ≠ i → t.miner? j = s.miner? j) ∧
      t.outline = ({ s with people.pages := t.people.pages } : State).outline

/-- START EVACUATION in QUIET or ASKING enters ALERTING, with the retained evacuation flag set, the note whether a round runs and no end of
round counted, and every roster entry's muster fields set up from its state and call (R156, R157); in the machine's other states it ends
BUSY. DECLINE EVACUATION in ASKING returns the machine to QUIET and sets the asking zone's declined flag (R155, R156); outside ASKING it
ends NOT_NOW. STAND DOWN ends NOT_NOW in QUIET with qualifier 1, and while gas stands outside a drill with qualifier 2 and the lowest zone
in use whose evac-gas flag is set (R162); where no zone's evac-gas flag stands or a drill runs, ends OK and clears the IN1 latch, and the
machine is QUIET where no evaluation finds gas anew (R162). MARK ACCOUNTED of a REQUIRED entry makes it SAFE and accounted; the unaccounted
count is the number of entries still REQUIRED, and a muster with none left is ACCOUNTED (R158, R161); of any other entry it ends NO_TARGET.
Where Leaves is named, what it leaves open may change with the machine. -/
def Obligations.EvacuationOrders : Prop :=
  ∀ (n : Nat) (s : State), s.running = true →
    (∀ drill reason : Nat, Posted s n (.startEvacuation n drill reason) → drill ≤ 1 → reason ≤ 255 →
      ((s.evac.state = .quiet ∨ s.evac.state = .asking) →
        ∃ t, exec (.startEvacuation n drill reason) s = .next t ∧
          Shows s t n .ok 0 [if drill = 1 ∧ s.evac.state = .quiet then 1#8 else 0#8] ∧
          t.evac.state = .alerting ∧ t.supply.retained.evacActive = true ∧ t.evac.roundAtEntry = s.loop.round.isSome ∧
          t.evac.roundEnds = 0 ∧
          (∀ i m, s.miner? i = some m → t.miner? i = some { m with
            muster := (match m.state with
              | .present | .lost => .required
              | .atRefuge => .safe
              | .out | .unseen => .notRequired)
            accounted := false, assist := decide (m.call = some .help) }) ∧
          t.evac.unaccounted = (t.people.roster.filter fun p => decide (p.2.muster = .required)).length ∧
          Leaves s t n) ∧
      (s.evac.state ≠ .quiet → s.evac.state ≠ .asking →
        ∃ t, exec (.startEvacuation n drill reason) s = .next t ∧ Shows s t n .busy 0 [] ∧ Untouched s t n)) ∧
    (∀ check z, Posted s n (.declineEvacuation n check) → crc8 [0x51#8] = BitVec.ofNat 8 check → s.evac.state = .asking →
      s.evac.askingZone = some z → s.evac.overlay = .none →
      ∃ t, exec (.declineEvacuation n check) s = .next t ∧ Shows s t n .ok 0 [BitVec.ofNat 8 z] ∧
        t.evac.state = .quiet ∧ t.evac.askingZone = none ∧ t.evac.askTimer = none ∧ t.evac.declined.contains z = true ∧
        Leaves { s with people.roster := t.people.roster } t n) ∧
    (∀ check, crc8 [0x51#8] = BitVec.ofNat 8 check →
      Refuses n (.declineEvacuation n check) s [(decide (s.evac.state ≠ .asking), .notNow, 0, [])]) ∧
    (∀ check, crc8 [0x52#8] = BitVec.ofNat 8 check →
      Refuses n (.standDown n check) s [(decide (s.evac.state = .quiet), .notNow, 1, [])] ∧
      ∀ z, risingFrom 0 s.zone.zones = true → s.evac.state ≠ .quiet → s.evac.drill = false → z ∈ s.zonesInUse →
        (s.zoneRec z).evacGas = true → (∀ y ∈ s.zonesInUse, y < z → (s.zoneRec y).evacGas = false) →
        Refuses n (.standDown n check) s [(true, .notNow, 2, [BitVec.ofNat 8 z])]) ∧
    (∀ i : Nat, Refuses n (.markAccounted n i) s
      [(decide ((s.miner? i).map (·.muster) ≠ some .required), .noTarget, 0, [])]) ∧
    (∀ check, Posted s n (.standDown n check) → crc8 [0x52#8] = BitVec.ofNat 8 check → s.evac.state ≠ .quiet →
      (s.evac.drill = true ∨ ∀ z ∈ s.zonesInUse, (s.zoneRec z).evacGas = false) →
      ∃ t, exec (.standDown n check) s = .next t ∧
        Shows s t n .ok 0 (BitVec.ofNat 8 s.evac.state.ctorIdx :: leBytes 2 s.evac.unaccounted) ∧
        t.supply.in1.latch = false ∧
        (s.noTests → s.airCurrent → t.evac.state = .quiet ∧ t.supply.retained.evacActive = false) ∧
        Leaves { s with people.roster := t.people.roster, supply.in1 := t.supply.in1 } t n) ∧
    (∀ (i : Nat) (m : Miner), Posted s n (.markAccounted n i) → i ≤ 255 → s.miner? i = some m → m.muster = .required →
      ∃ t, exec (.markAccounted n i) s = .next t ∧ Shows s t n .ok 0 (leBytes 2 t.evac.unaccounted) ∧
        t.miner? i = some { m with muster := .safe, accounted := true } ∧ (∀ j, j ≠ i → t.miner? j = s.miner? j) ∧
        t.evac.unaccounted = (t.people.roster.filter fun p => decide (p.2.muster = .required)).length ∧
        ((s.evac.state = .mustering ∨ s.evac.state = .overdue) → t.evac.unaccounted = 0 → t.evac.state = .accounted) ∧
        t.condition? (.miner i) .evacuate = none ∧
        t.evac = { s.evac with
          state := t.evac.state, required := t.evac.required, safe := t.evac.safe, unaccounted := t.evac.unaccounted
          assist := t.evac.assist } ∧
        Spares { s with
          people.roster := t.people.roster, people.conditions := t.people.conditions, people.lists := t.people.lists
          evac := t.evac } t n)

/-- CANCEL of a slot that is not TAKEN with the take number of an in-flight entry ends TOO_LATE, with nothing else changed; of one that is,
OK with the order's take number, and each of the six long orders in it ends CANCELLED in its own slot with its own result values: the bump
test's, the calibration's, the self check's (Table 5-1, R100, R103), the page's (R117; its seconds truncated, log entry 70), the roll call's
(R46) and none of the address assignment's (R15, R16, R47). An end report whose slot no longer waits is an orphan: the result is discarded,
ORDER_ORPHANED raised and ORPHAN logged, and the entry leaves the list (R15). Where the outline is named, it leaves open what the units
judge. -/
def Obligations.CancelsAndOrphans : Prop :=
  (∀ (n k : Nat) (s : State), Posted s n (.cancel n k) → k ≤ 31 →
    ((s.handOver k ≠ handTaken ∨ ∀ e ∈ s.orders.inFlight, ¬(e.slot = k ∧ e.take = s.slotTake k)) →
      ∃ t, exec (.cancel n k) s = .next t ∧ Shows s t n .tooLate 0 [] ∧ Untouched s t n) ∧
    ∀ (e : InFlight) (kind : TargetKind) (i : Nat), Waiting s e e.code kind i → e.slot = k →
      ∃ t, exec (.cancel n k) s = .next t ∧ Shows s t n .ok 0 (leBytes 2 e.take.toNat) ∧
        (let ended (vals : List Byte) : Prop :=
           t.handOver k = handDone ∧ t.slotTake k = e.take ∧ t.slotByte k 4 = 12#8 ∧ t.slotByte k 5 = 0#8 ∧
           (List.range 8).map (fun j => t.slotByte k (56 + j)) = resultBytes vals ∧ e ∉ t.orders.inFlight ∧
           ∀ m, m ≠ n → (∀ x ∈ s.orders.inFlight, x.slot ≠ m) → sameSlot s t m
         (e.code = 0x11 → kind = .loop → i = 0 →
           ended [] ∧ t = { s with port := t.port, orders := t.orders, loop.assignment := none }) ∧
         (∀ rc, e.code = 0x10 → kind = .loop → i = 0 → s.loop.rollCall = some rc → rc.automatic = false →
           let count (f : Finding) : Byte := BitVec.ofNat 8 (s.loop.heads.filter fun p => decide (p.2.finding = f)).length
           ended (if rc.begun then [count .found, count .clash, count .mismatch] else [0#8, 0#8, 0#8]) ∧
           t = { s with port := t.port, orders := t.orders, loop.rollCall := none }) ∧
         (∀ b, e.code = 0x21 → kind = .channel → lookupAt s.tests.bumps i = some b →
           ended ((match b.timeAtA with
               | some a => leBytes 2 (min 65535 (elapsed a b.start / 100))
               | none => [0xFF#8, 0xFF#8]) ++
             [0xFF#8, 0xFF#8] ++ leBytes 2 b.extreme ++ [BitVec.ofNat 8 b.highest, 0xFF#8]) ∧ t.outline = s.outline) ∧
         (∀ c, e.code = 0x23 → kind = .channel → lookupAt s.tests.cals i = some c →
           ended [0#8, 0#8, 0#8, 0#8, BitVec.ofNat 8 c.samples.length, 0#8, 0#8, 0#8] ∧ t.outline = s.outline) ∧
         (∀ c, e.code = 0x22 → kind = .head → lookupAt s.tests.checks i = some c →
           ended ([1, 2, 3, 4].flatMap fun j => leBytes 2 ((lookupAt c.values j).getD 0xFFFF)) ∧ t.outline = s.outline) ∧
         ∀ p m, e.code = 0x30 → kind = .roster → lookupAt s.people.pages i = some p → s.miner? i = some m →
           ended ([BitVec.ofNat 8 p.deliveries, BitVec.ofNat 8 (p.reader.getD 0xFF)] ++ leBytes 2 (elapsed s.now p.start / 1000)) ∧
           t.miner? i = some { m with pageTake := none, pageCode := none, pageAck := none } ∧
           t.outline = ({ s with people.pages := t.people.pages } : State).outline)) ∧
  ∀ (s : State) (e : InFlight) (r : OrderResult) (q : Nat) (vals : List Byte), s.active = true → s.port.badBytes = [] →
    (s.handOver e.slot ≠ handTaken ∨ s.slotTake e.slot ≠ e.take) →
    let t := s.endEntry e r q vals
    t.orders.inFlight = s.orders.inFlight.filter (fun x => !decide (x = e)) ∧ t.port.board = s.port.board ∧
    t.causeCount .orderOrphaned = s.causeCount .orderOrphaned + 1#16 ∧
    (∀ c, c ≠ .orderOrphaned → t.causeCount c = s.causeCount c) ∧
    (∀ m, m ∈ t.work.news ↔
      m = { kind := 0x01, cls := 6, index := e.slot, a := e.take.toNat, b := e.code * 256 + r.ctorIdx } ∨ m ∈ s.work.news)

/-! ### The loop -/

/-- An expiry of the round timer, when it is due: with no round running the next round begins, its MARKER on end A at once if the loop is
free and owed otherwise; while a round runs, the round is an overrun round, the count of them saturates, and a round is owed (R29, R30). In
MAINS every configured head is due (R31). The supply mode in force is compared with the poll plan: a faster one takes both modes at once
with plan count 0; the same one takes the windows mode; a slower one that the round before ran with takes the rates mode with plan count 1;
any other slower one takes the windows mode for a transition round. The round's list is then, in ascending loop position, every configured
head in a transition round, and otherwise those whose kind's divisor under the rates mode divides the plan count, 1 for GAS, RELAY and
REFUGE and 1, 2 or 4 for READER and SOUNDER (R31, R32). The MARKER judges the loop: its good arrival at end B makes the loop WHOLE, and a
window that ends without one makes it BROKEN; an arrival that is not good, or that no MARKER was sent for, changes nothing (R34). That the
loop is WHOLE at the arrival, and not only at the window's end, is the model's choice (log entry 10), as is that a sounder which came back
waits for its next due round (log entry 71). -/
def Obligations.RoundsAndMarkers : Prop :=
  (∀ s : State, Awake s → s.due s.loop.roundAt s.supply.policy.pollPeriod = true →
    (s.loop.round = none →
      ∃ t r, exec .roundTimerExpiry s = .next t ∧ t.loop.round = some r ∧ t.loop.roundOwed = false ∧
        t.loop.roundAt = s.loop.roundAt + BitVec.ofNat 48 s.supply.policy.pollPeriod ∧
        (s.supply.mode = .mains → s.loop.rates = .mains → ∀ a, (s.head a).configured = true → a ∈ r.due) ∧
        (let rank : SupplyMode → Nat := fun | .mains => 0 | .battery => 1 | .reserve => 2
         let divisor (k : HeadKind) : Nat := if k = .reader ∨ k = .sounder then
             (match t.loop.rates with | .mains => 1 | .battery => 2 | .reserve => 4) else 1
         let slower : Prop := rank s.loop.rates < rank s.supply.mode
         let ran : Prop := slower ∧ s.loop.lastWindows = some s.supply.mode
         t.loop.rates = (if rank s.supply.mode < rank s.loop.rates ∨ ran then s.supply.mode else s.loop.rates) ∧
         t.loop.windows = (if ran then s.loop.windows else s.supply.mode) ∧ r.windows = t.loop.windows ∧
         t.loop.plan = (if rank s.supply.mode < rank s.loop.rates then 0 else if ran then 1 else s.loop.plan) ∧
         (r.due.Pairwise fun a b => (s.head a).position ≤ (s.head b).position) ∧
         (risingFrom 0 s.loop.heads = true → ∀ a, a ∈ r.due ↔
           (s.head a).configured = true ∧ ((slower ∧ ¬ran) ∨ t.loop.plan % divisor (s.head a).kind = 0))) ∧
        (s.loop.exchange = none → r.markerOwed = false ∧
          t.loop.exchange = some {
            frame := { kind := .marker, address := 0, toggle := false, payload := .empty }, purpose := .marker, online := s.headOnline 0
            side := .a, retry := false, begun := false, garbled := false, heard := false, abandoned := false, sentAt := s.now }) ∧
        (s.loop.exchange ≠ none → r.markerOwed = true ∧ t.loop.exchange = s.loop.exchange) ∧
        t.outline = ({ s with loop := t.loop } : State).outline) ∧
    ∀ r, s.loop.round = some r →
      (r.overrun = false →
        ∃ t, exec .roundTimerExpiry s = .next t ∧
          t.loop = { s.loop with
            roundAt := s.loop.roundAt + BitVec.ofNat 48 s.supply.policy.pollPeriod, roundOwed := true
            round := some { r with overrun := true }, overruns := min 65535 (s.loop.overruns + 1), overrunRun := true } ∧
          t.outline = ({ s with loop := t.loop } : State).outline) ∧
      (r.overrun = true →
        exec .roundTimerExpiry s = .next { s with
          loop.roundAt := s.loop.roundAt + BitVec.ofNat 48 s.supply.policy.pollPeriod, loop.roundOwed := true })) ∧
  ∀ (s : State) (ex : Exchange), Awake s → s.loop.exchange = some ex →
    (ex.frame.kind = .marker → ex.heard = false →
      (∃ t, exec (.markerArrival true) s = .next t ∧ t.loop.state = .whole ∧
        t.loop.exchange = some { ex with heard := true } ∧ t.loop.heads = s.loop.heads ∧
        t.outline = ({ s with loop := t.loop } : State).outline) ∧
      (s.due ex.sentAt 4 = true → (∀ r, s.loop.round = some r → r.markerOwed = false) →
        ∃ t, exec .responseWindowExpiry s = .next t ∧ t.loop.state = .broken ∧ t.loop.exchange = none ∧
          t.loop.heads = s.loop.heads ∧ t.outline = ({ s with loop := t.loop } : State).outline)) ∧
    exec (.markerArrival false) s = .next s ∧ (ex.frame.kind ≠ .marker → exec (.markerArrival true) s = .next s)

/-- What the loop does next while it is free: a continuation poll, then the marked ONLINE sounder of lowest position, then the round's list
in order, heads UNCONFIGURED or in CLASH passed over, an ONLINE head polled and any other due head sent an IDENTIFY, then the roll call's
examinations, the address assignment's frames and its check, then the end of the round (R30, R33, R44, R47). Each frame goes out first on
end A while the loop is WHOLE and on the head's preferred end while it is BROKEN, with the toggle inverted after a POLL (R24, R26, R27,
R35); every POLL carries the configured window times the divisor of the head's kind under the windows mode (R41, Table 2-3), a RELAY's the
HOLD commands, set exactly for a circuit that a zone in use names while its relay command is CLOSED (R83), and a SOUNDER's the play of its
zone; a REFUGE's O2 and CO mean as four BCD digits, dashes where the channel is not healthy or its window is empty, with the point position
of the channel's kind (R69). Three clauses are the model's own: dashes for a panel that no refuge names (log entry 26), dashes for a channel
that is not in use (log entry 50), and that a marked sounder which is not ONLINE is passed over, which is inferred (log entry 36). A due
frame takes its head out of the round's list with those passed over before it, and the first frame after the polls due ends the list. What
Payload names beside these, the rules of the owning blocks give. -/
def Obligations.LoopFramesAreSent : Prop :=
  ∀ s : State,
    let passed (a : Nat) : Prop :=
      (s.head a).configured = false ∨ (s.head a).link = .clash ∨ (s.head a).link = .unconfigured
    let online (a : Nat) : Prop := (s.head a).configured = true ∧ (s.head a).link = .online
    let side (a : Nat) : LoopEnd :=
      if s.loop.state = .whole then .a else if (s.head a).configured then (s.head a).preferred else .a
    let window (a : Nat) : Nat := (s.head a).window *
      (if (s.head a).kind = .reader ∨ (s.head a).kind = .sounder then
        (match s.loop.windows with | .mains => 1 | .battery => 2 | .reserve => 4) else 1)
    let sent (f : Frame) (p : Purpose) (e : LoopEnd) : Exchange :=
      { frame := f, purpose := p, online := s.headOnline f.address, side := e, retry := false, begun := false, garbled := false
        heard := false, abandoned := false, sentAt := s.now }
    let shown (i : Option Nat) (digits point : Nat) : Prop :=
      (∀ c, i.bind s.channel? = some c → point = (match c.kind with | .ch4 => 2 | .co => 0 | .o2 => 1 | .airvel => 2)) ∧
      (∀ c, i.bind s.channel? = some c → s.healthy c = true → ∀ mean, c.mean = some mean → ∀ m, m = min mean 9999 →
        digits = m / 1000 * 0x1000 + m / 100 % 10 * 0x100 + m / 10 % 10 * 0x10 + m % 10) ∧
      ((∀ c, i.bind s.channel? = some c → s.healthy c = false ∨ c.mean = none) → digits = 0xFFFF)
    ((∀ ex, s.loop.exchange = some ex → s.nextWork = .none) ∧
     (s.loop.exchange = none →
       (∀ a n, s.loop.continuation = some (a, n) → s.nextWork = .poll a (.continuation n)) ∧
       (s.loop.continuation = none →
         (∀ a, a ∈ s.loop.marks → online a → (∀ b ∈ s.loop.marks, online b → b = a ∨ (s.head a).position < (s.head b).position) →
           s.nextWork = .poll a .interposed) ∧
         ((∀ a ∈ s.loop.marks, ¬online a) →
           (s.loop.round = none → s.nextWork = .none) ∧
           ∀ r, s.loop.round = some r →
             (∀ before a after, r.due = before ++ a :: after → (∀ b ∈ before, passed b) → ¬passed a →
               (online a → s.nextWork = .poll a .due) ∧ (¬online a → s.nextWork = .identify a .due)) ∧
             ((∀ b ∈ r.due, passed b) →
               (∀ rc, s.loop.rollCall = some rc → rc.begun = true → 0 < r.rollLeft → s.nextWork = .identify rc.address .rollCall) ∧
               ((∀ rc, s.loop.rollCall = some rc → rc.begun = false ∨ r.rollLeft = 0) →
                 ((∀ x, s.loop.assignment = some x → x.begun = false) → s.nextWork = .roundEnd) ∧
                 ∀ x, s.loop.assignment = some x → x.begun = true →
                   (∀ e rest, r.assignEnds = e :: rest → s.loop.state = .broken ∨ e = .a → s.nextWork = .assign e) ∧
                   ((r.assignEnds = [] ∨ (s.loop.state = .whole ∧ LoopEnd.a ∉ r.assignEnds)) →
                     s.nextWork = if r.assignCheck then .identify x.target .assignCheck else .roundEnd))))))) ∧
    (Awake s →
      (∀ a p, s.nextWork = .poll a p →
        ∃ t w, exec .pollSend s = .next t ∧
          t.loop.exchange = some (sent { kind := .poll, address := a, toggle := (s.headInner a).toggle, payload := w } p (side a)) ∧
          ((s.head a).kind = .gas → ∃ step, w = .gas (window a) step ∧ (lookupAt s.tests.checks a = none → step = 0)) ∧
          ((s.head a).kind = .reader → ∃ es, w = .reader (window a) es ∧ es.length ≤ 4 ∧ ((∃ n, p = .continuation n) → es = [])) ∧
          ((s.head a).kind = .relay → ∃ holds, w = .relay (window a) holds ∧ holds.length = (s.head a).count ∧
            ∀ k, k < (s.head a).count → (holds[k]? = some true ↔
              ∃ z ∈ s.zone.zones, z.2.inUse = true ∧ (a, k) ∈ z.2.relays ∧ z.2.closed = true)) ∧
          ((s.head a).kind = .refuge → ∃ o2 o2Point co coPoint, w = .refuge (window a) o2 o2Point co coPoint ∧
            let r := s.route.refuges.find? fun x => decide (x.2.panel = a)
            shown (r.map (·.2.o2)) o2 o2Point ∧ shown (r.map (·.2.co)) co coPoint) ∧
          ((s.head a).kind = .sounder →
            ((s.zone.zones.find? fun z => z.2.inUse && z.2.sounders.contains a) = none → w = .sounder (window a) 0 0 0 0) ∧
            ∀ z, (s.zone.zones.find? fun z => z.2.inUse && z.2.sounders.contains a) = some z →
              ((s.choice z.1).pattern = none → w = .sounder (window a) 0 0 0 0) ∧
              ∀ i, (s.choice z.1).pattern = some i →
                w = .sounder (window a) (s.pattern i).onTime (s.pattern i).offTime
                  ((s.pattern i).duty + if (s.choice z.1).seq then 128 else 0) (s.pattern i).repeats) ∧
          (t.headInner a).toggle = !(s.headInner a).toggle ∧ (t.headInner a).lastWindow = window a ∧
          (∀ b, b ≠ a → t.headInner b = s.headInner b) ∧
          (p = .due → ∀ r before after, s.loop.round = some r → r.due = before ++ a :: after → (∀ b ∈ before, passed b) →
            t.loop.round = some { r with due := after }) ∧
          t.loop.heads = s.loop.heads ∧ t.outline = ({ s with loop := t.loop } : State).outline ∧
          ((s.head a).kind ≠ .reader → t = { s with loop := t.loop, tests := t.tests })) ∧
      (∀ a p, s.nextWork = .identify a p →
        ∃ t, exec .identifySend s = .next t ∧
          t.loop.exchange = some (sent { kind := .identify, address := a, toggle := false, payload := .empty } p (side a)) ∧
          (p = .due → ∀ r before after, s.loop.round = some r → r.due = before ++ a :: after → (∀ b ∈ before, passed b) →
            t.loop.round = some { r with due := after }) ∧
          (p ≠ .due → ∀ r, t.loop.round = some r → r.due = []) ∧
          t = { s with loop.exchange := t.loop.exchange, loop.round := t.loop.round }) ∧
      (∀ e x, s.nextWork = .assign e → s.loop.assignment = some x →
        ∃ t, exec .assignSend s = .next t ∧
          t.loop.exchange = some
            (sent { kind := .assign, address := 0, toggle := false, payload := .assign x.serial x.target } .assignFrame e) ∧
          (∀ r, t.loop.round = some r → r.due = []) ∧
          t = { s with loop.exchange := t.loop.exchange, loop.round := t.loop.round }))

/-- A first try that brings no reply within the response window, or a garbled one, is followed by one retry on the other end (R24, R35); a
reply that begins within the window holds the window open. The second failed try of a due POLL or IDENTIFY is a missed round of the head:
its count of them rises to at most 3, ONLINE becomes SUSPECT, and at 3 the head is OFFLINE (R35, R39, Table 2-4); the head joins the round's
missed heads, and neither end is reached. A GAS or REFUGE head that so leaves ONLINE leaves its channels without data: NORMAL and SETTLING
become FAULT LINK, and the causes WARMUP, SIGNAL and SENSOR become LINK (R40, R66). No other head changes. An exchange whose head was
retired ends at its first failed try, or at a reply, and records and hands on nothing (R40, R43); that an assignment's IDENTIFY of the third
round then ends the order TIMEOUT is the model's choice (log entry 32). -/
def Obligations.FailedTriesAndMissedPolls : Prop :=
  ∀ (s : State) (ex : Exchange), Awake s → s.loop.exchange = some ex → (ex.frame.kind = .poll ∨ ex.frame.kind = .identify) →
    let a := ex.frame.address
    let again (g : Bool) : State := { s with
      loop.exchange := some
        { ex with side := ex.side.other, retry := true, begun := false, garbled := g, sentAt := s.now } }
    let missedRound (t : State) (o : PollOutcome) : Prop :=
      t.loop.exchange = none ∧ (t.head a).missed = min 3 ((s.head a).missed + 1) ∧
      (t.head a).link =
        (if (s.head a).link = .online then .suspect
         else if 2 ≤ (s.head a).missed then .offline else (s.head a).link) ∧
      (t.head a).newest = some o ∧ (∀ b, b ≠ a → t.head b = s.head b) ∧
      t.loop.round = (s.loop.round.map fun r => { r with missed := r.missed ++ [a] }) ∧
      ((s.head a).link = .online → (s.head a).kind = .gas ∨ (s.head a).kind = .refuge → s.noTests → ChannelsLeft s t a)
    let dropped (t : State) : Prop :=
      (ex.purpose ≠ .assignCheck → t = { s with loop.exchange := none }) ∧
      (ex.purpose = .assignCheck → t.loop.exchange = none ∧ t.loop.heads = s.loop.heads ∧ t.loop.inner = s.loop.inner ∧
        ∀ x, s.loop.assignment = some x → x.begun = true →
          t.loop.assignment = if 3 ≤ x.rounds then none else some x)
    (ex.retry = false → ex.abandoned = false →
      (s.due ex.sentAt 4 = true → ex.begun = false → exec .responseWindowExpiry s = .next (again ex.garbled)) ∧
      exec .garbledReply s = .next (again true)) ∧
    (ex.begun = true → exec .responseWindowExpiry s = .next s) ∧
    (elapsed s.now ex.sentAt ≤ 4 → exec .replyBegun s = .next { s with loop.exchange := some { ex with begun := true } }) ∧
    (4 < elapsed s.now ex.sentAt → exec .replyBegun s = .next s) ∧
    ((∀ r, s.loop.round = some r → r.markerOwed = false) →
      (ex.purpose = .due → ex.retry = true → ex.abandoned = false → (s.head a).link ≠ .clash → (s.head a).link ≠ .unconfigured →
        (∃ t, exec .garbledReply s = .next t ∧ missedRound t .bad) ∧
        (s.due ex.sentAt 4 = true → ex.begun = false →
          ∃ t, exec .responseWindowExpiry s = .next t ∧ missedRound t (if ex.garbled then .bad else .missed))) ∧
      (ex.abandoned = true →
        (∃ t, exec .garbledReply s = .next t ∧ dropped t) ∧
        (s.due ex.sentAt 4 = true → ex.begun = false → ∃ t, exec .responseWindowExpiry s = .next t ∧ dropped t) ∧
        (∀ r : IdentifyReply, ∃ t, exec (.identifyReply r) s = .next t ∧ dropped t) ∧
        (∀ r : SounderReply, ∃ t, exec (.sounderReply r) s = .next t ∧ dropped t)))


/-- A reply that does not answer the frame in the exchange counts as garbled: a wrong address or toggle, a wrong length, an IDENTIFY reply
to a POLL and the reverse; a reply while no frame awaits one has no effect (R24). The length of a GAS or RELAY reply follows the configured
count; one of a kind the head is not configured with is right at any count, the model's choice (log entry 45). A READER reply holds at most
8 sightings, of 6 bytes or with the vehicle fields 10, in at most 48 bytes (R26, Table 2-2). -/
def Obligations.WrongRepliesAreGarbled : Prop :=
  ∀ (s : State) (i : Instr) (h : ReplyHead),
    ((∃ r : GasReply, i = .gasReply r ∧ h = r.head) ∨ (∃ r : ReaderReply, i = .readerReply r ∧ h = r.head) ∨
      (∃ r : RelayReply, i = .relayReply r ∧ h = r.head) ∨ (∃ r : RefugeReply, i = .refugeReply r ∧ h = r.head) ∨
      (∃ r : SounderReply, i = .sounderReply r ∧ h = r.head)) →
    (∀ ex, s.loop.exchange = some ex → ex.frame.kind = .poll → h.address ≠ ex.frame.address ∨ h.toggle ≠ ex.frame.toggle →
      exec i s = exec .garbledReply s) ∧
    (∀ ex, s.loop.exchange = some ex → ex.frame.kind = .identify → exec i s = exec .garbledReply s) ∧
    (∀ (ex : Exchange) (r : GasReply), i = .gasReply r → s.loop.exchange = some ex → ex.frame.kind = .poll →
      (s.head ex.frame.address).kind = .gas → (s.head ex.frame.address).count ≠ r.slots.length →
      exec i s = exec .garbledReply s) ∧
    (∀ (ex : Exchange) (r : RelayReply), i = .relayReply r → s.loop.exchange = some ex → ex.frame.kind = .poll →
      (s.head ex.frame.address).kind = .relay → (s.head ex.frame.address).count ≠ r.closed.length →
      exec i s = exec .garbledReply s) ∧
    (∀ (ex : Exchange) (r : ReaderReply), i = .readerReply r → s.loop.exchange = some ex → ex.frame.kind = .poll →
      (8 < r.sightings.length ∨
        48 < (r.sightings.map fun x => match x.vehicle with | some _ => 10 | none => 6).sum) →
      exec i s = exec .garbledReply s) ∧
    (Awake s → (∀ ex, s.loop.exchange = some ex → ex.frame.kind = .marker ∨ ex.frame.kind = .assign) → exec i s = .next s) ∧
    ∀ (r : IdentifyReply) (ex : Exchange), s.loop.exchange = some ex →
      (ex.frame.kind = .poll ∨ (ex.frame.kind = .identify ∧ r.head.address ≠ ex.frame.address)) →
      exec (.identifyReply r) s = exec .garbledReply s

/-- Polls that are not the head's due poll, and replies of another kind (R30, R33, R39, R40). A reader's MORE calls for a continuation poll
after its due poll and after its first and second continuation while the head is ONLINE; an interposed sounder poll that ends clears its
mark; a continuation or interposed poll leaves the link state, whether its valid reply matches or its second try fails, and only a valid
reply sets the missed rounds to 0. A valid POLL reply whose kind is not the head's makes the head MISMATCH with missed rounds 0, and nothing
of it is handed on: the tags' places, pull stations, refuges, circuits and, of a head that was not ONLINE or is not of a kind that carries
channels, the channels stay; that such a GAS or RELAY reply is valid at any count is the model's choice (log entry 45). An interposed reply
whose station is pulled may start an evacuation, whose alarm marks sounders anew, so the marks are stated for one not pulled. -/
def Obligations.OtherPollsAndMismatches : Prop :=
  ∀ (s : State) (ex : Exchange), Awake s → s.loop.exchange = some ex → ex.frame.kind = .poll → ex.abandoned = false →
    (s.head ex.frame.address).configured = true → (s.head ex.frame.address).link ≠ .clash →
    (s.head ex.frame.address).link ≠ .unconfigured → (∀ r, s.loop.round = some r → r.markerOwed = false) →
    let a := ex.frame.address
    (∀ r : ReaderReply, (s.head a).kind = .reader → r.head.address = a → r.head.toggle = ex.frame.toggle → sightingsFit r.sightings = true →
      ex.purpose = .due ∨ (∃ n, ex.purpose = .continuation n) →
      ∃ t, exec (.readerReply r) s = .next t ∧ t.loop.exchange = none ∧ (t.head a).missed = 0 ∧
        (t.head a).lastReply = some s.stamp ∧ (t.head a).link = (if ex.purpose = .due then .online else (s.head a).link) ∧
        t.loop.continuation =
          (if r.head.more = true ∧ (t.head a).link = .online then
            (if ex.purpose = .due then some (a, 1)
             else if ex.purpose = .continuation 1 then some (a, 2)
             else if ex.purpose = .continuation 2 then some (a, 3)
             else if ex.purpose = .continuation 0 then some (a, 1) else none)
          else none)) ∧
    (∀ r : SounderReply, (s.head a).kind = .sounder → r.head.address = a → r.head.toggle = ex.frame.toggle →
      ex.purpose = .interposed →
      ∃ t, exec (.sounderReply r) s = .next t ∧ t.loop.exchange = none ∧ (t.head a).missed = 0 ∧
        (t.head a).link = (s.head a).link ∧ (t.head a).lastReply = some s.stamp ∧
        (ex.online = true → t.evac.pulled.contains a = r.pulled) ∧
        (r.pulled = false → ∀ b, b ∈ t.loop.marks ↔ b ∈ s.loop.marks ∧ b ≠ a)) ∧
    (ex.retry = true → ex.purpose = .interposed ∨ (∃ n, ex.purpose = .continuation n) →
      ∃ t, exec .garbledReply s = .next t ∧ t.loop.exchange = none ∧ (t.head a).link = (s.head a).link ∧
        (t.head a).missed = (s.head a).missed ∧ (t.head a).newest = some .bad ∧ t.loop.continuation = s.loop.continuation ∧
        (ex.purpose = .interposed → ∀ b, b ∈ t.loop.marks ↔ b ∈ s.loop.marks ∧ b ≠ a) ∧
        t.outline = ({ s with loop := t.loop } : State).outline) ∧
    ∀ (i : Instr) (h : ReplyHead) (k : HeadKind),
      ((∃ r : GasReply, i = .gasReply r ∧ h = r.head ∧ k = .gas) ∨
        (∃ r : ReaderReply, i = .readerReply r ∧ h = r.head ∧ k = .reader ∧ sightingsFit r.sightings = true) ∨
        (∃ r : RelayReply, i = .relayReply r ∧ h = r.head ∧ k = .relay) ∨
        (∃ r : RefugeReply, i = .refugeReply r ∧ h = r.head ∧ k = .refuge) ∨
        (∃ r : SounderReply, i = .sounderReply r ∧ h = r.head ∧ k = .sounder)) →
      h.address = a → h.toggle = ex.frame.toggle → (s.head a).kind ≠ k → ex.frame.entries = [] →
      ex.purpose = .due ∨ ex.purpose = .interposed ∨ (∃ n, ex.purpose = .continuation n) →
      ∃ t, exec i s = .next t ∧ t.loop.exchange = none ∧ t.loop.continuation = none ∧ (t.head a).link = .mismatch ∧
        (t.head a).missed = 0 ∧ (t.head a).lastReply = some s.stamp ∧ (∀ b, b ≠ a → t.head b = s.head b) ∧
        (∀ j, (t.miner? j).map Miner.place = (s.miner? j).map Miner.place) ∧
        (∀ j, (t.vehicle? j).map Vehicle.place = (s.vehicle? j).map Vehicle.place) ∧
        (∀ j, (t.refuge? j).map Refuge.place = (s.refuge? j).map Refuge.place) ∧
        t.evac.pulled = s.evac.pulled ∧ t.zone.circuits = s.zone.circuits ∧ t.people.pages = s.people.pages ∧
        (((s.head a).link ≠ .online ∨ ((s.head a).kind ≠ .gas ∧ (s.head a).kind ≠ .refuge)) → s.noTests → t.air = s.air) ∧
        t.outline = ({ s with loop := t.loop } : State).outline

/-- A valid GAS reply of the polled head's kind and count makes the head ONLINE; where the POLL was sent to an ONLINE head, it gives each
attached channel in service or in FAULT its reading, and no other channel changes (R35, R39, R40, R54, R56). A clean reading of a channel in
service shows the converted value, joins it to the smoothing window and forms the mean and the level; one more than 5 % of the span below
zero makes the channel FAULT DRIFT_LOW. One that is not clean makes it FAULT with the first of SENSOR, WARMUP and SIGNAL that applies. A
FAULT of LINK, WARMUP, SIGNAL or SENSOR takes the cause of a reading that is not clean, and ends at the first clean one, which is then
processed as in SETTLING from an empty window and level 0, drift-low test included; DRIFT_LOW takes the raw count alone; SLOW_RECOVERY ends
so at a clean reading whose value has cleared L1, and otherwise shows the value (R56 to R58, R60 to R62, R65). That a raw count above 4095
is not clean, with cause SIGNAL like 4095, is inferred, for R57 names 0 and 4095 alone (log entry 18). -/
def Obligations.GasReplyGivesReadings : Prop :=
  (∀ (c : Channel) (w : List Nat) (r : RawReading), c.zero + 64 ≤ c.span →
    let d := c.span - c.zero
    let u := if c.zero ≤ r.raw then ((r.raw - c.zero) * c.gas + d / 2) / d else 0
    let y := (({ chan := c, win := w } : Cell).read r).1
    let clean : Prop := r.sensor = false ∧ r.warmup = false ∧ 1 ≤ r.raw ∧ r.raw ≤ 4094
    let bad : Option FaultCause := some (if r.sensor then .sensor else if r.warmup then .warmup else .signal)
    let drift : Prop := r.raw < c.zero ∧ d < (c.zero - r.raw) * 20
    let faulted (cause : Option FaultCause) (v : Nat) : Prop :=
      y.chan = { c with
        state := .fault, cause := cause, lastRaw := some r.raw, v := v, mean := none, n := 0, level := 0, overRange := false } ∧
      y.win = []
    let served (before : List Nat) (level : Nat) (cause : Option FaultCause) : Prop :=
      (drift → faulted (some .driftLow) 0) ∧
      (¬drift → y.chan.v = min u c.kind.fullScale ∧ y.chan.overRange = decide (c.kind.fullScale < u) ∧ y.chan.cause = cause ∧
        y.chan.lastRaw = some r.raw ∧ y.chan.conf = c.conf ∧ y.chan.n = y.win.length ∧
        y.win = (if c.window ≤ before.length then before.drop 1 else before) ++ [y.chan.v] ∧
        (∃ m, y.chan.mean = some m ∧ m = ((y.win.foldl (· + ·) 0) + y.win.length / 2) / y.win.length ∧
          y.chan.level = c.evaluate level m y.chan.v) ∧
        y.chan.state = if y.win.length = c.window then .normal else .settling)
    ((c.state = .normal ∨ c.state = .settling) →
      (¬clean → faulted bad c.v) ∧ (clean → served w c.level c.cause)) ∧
    (c.state = .fault →
      (c.cause = some .link ∨ c.cause = some .warmup ∨ c.cause = some .signal ∨ c.cause = some .sensor →
        (¬clean → y.chan = { c with lastRaw := some r.raw, cause := bad } ∧ y.win = w) ∧ (clean → served [] 0 none)) ∧
      (c.cause = some .driftLow → y.chan = { c with lastRaw := some r.raw } ∧ y.win = w) ∧
      (c.cause = some .slowRecovery →
        (¬clean → y.chan = { c with lastRaw := some r.raw } ∧ y.win = w) ∧
        (clean →
          let v := min u c.kind.fullScale
          let cleared : Prop := if c.kind.rising then v < c.l1 else c.l1 < v
          (drift ∨ cleared → served [] 0 none) ∧
          (¬drift → ¬cleared →
            y.chan = { c with lastRaw := some r.raw, v := v, overRange := decide (c.kind.fullScale < u) } ∧ y.win = w))))) ∧
  ∀ (s : State) (ex : Exchange) (r : GasReply), Awake s → Answered s ex r.head .gas →
    (s.head ex.frame.address).count = r.slots.length →
    ∃ t, exec (.gasReply r) s = .next t ∧ PollTaken s t ex r.head .gas ∧
      (ex.online = false → s.noTests → t.air = s.air) ∧
      (ex.online = true → s.noTests → s.tablesRising →
        ∀ k x i c, r.slots[k]? = some x → s.channelAt ex.frame.address k = some i → s.channel? i = some c →
          (c.state = .normal ∨ c.state = .settling ∨ c.state = .fault) →
          let y := (({ chan := c, win := s.channelWindow i } : Cell).read { x with warmup := x.warmup || r.head.warmup }).1
          ∃ d, t.channel? i = some d ∧ { d with changed := c.changed } = y.chan ∧ t.channelWindow i = y.win) ∧
      (ex.online = true → s.noTests → s.tablesRising →
        ∀ j, (∀ k, k < r.slots.length → s.channelAt ex.frame.address k ≠ some j) →
          t.channel? j = s.channel? j ∧ t.channelWindow j = s.channelWindow j)


/-- A valid READER reply to a POLL sent to an ONLINE head: the sighting of a miner's tag that is on the roster and PRESENT in the reader's
zone refreshes the entry; of one UNSEEN, LOST or OUT it makes the entry PRESENT in the zone, or AT_REFUGE in a refuge zone (R35, R39, R105,
R106, R110, R114). -/
def Obligations.ReaderReplySightsMiners : Prop :=
  ∀ (s : State) (ex : Exchange) (r : ReaderReply), Awake s → Answered s ex r.head .reader → sightingsFit r.sightings = true →
    ∃ t, exec (.readerReply r) s = .next t ∧ PollTaken s t ex r.head .reader ∧
      ∀ (x : Sighting) (z i : Nat) (m : Miner), r.sightings = [x] → ex.online = true →
        1 ≤ x.tag → x.tag ≤ 0x7FFFFF → s.readerZone ex.frame.address = some z →
        s.people.roster.find? (fun p => decide (p.2.tag = x.tag)) = some (i, m) → s.tablesRising →
        (m.state = .present ∧ m.zone = some z ∨ m.state = .unseen ∨ m.state = .lost ∨ m.state = .out) →
        ∃ m', t.miner? i = some m' ∧ m'.tag = m.tag ∧ m'.person = m.person ∧ m'.zone = some z ∧
          m'.state = (if m.state = .present then .present
            else if (s.zoneRec z).kind = .refuge then .atRefuge else .present) ∧
          m'.strength = x.strength ∧ m'.lastSeen = some s.now ∧ m'.lastReader = some ex.frame.address ∧
          m'.batteryLow = x.batteryLow ∧ m'.motionless = x.motionless ∧ m'.lastSeq = some x.seq ∧
          ∀ j, j ≠ i → (t.miner? j).map (·.tag) = (s.miner? j).map (·.tag)

/-- A valid RELAY reply to a POLL sent to an ONLINE head judges the feedback of each circuit of a zone against the HOLD command the POLL
carried: equal, the count and fault are cleared; different for the second time in a row, the fault stands, OPEN_FAULT where HOLD was
commanded and WELDED where not (R35, R39, R84). -/
def Obligations.RelayReplyJudgesCircuits : Prop :=
  ∀ (s : State) (ex : Exchange) (r : RelayReply), Awake s → Answered s ex r.head .relay →
    (s.head ex.frame.address).count = r.closed.length →
    ∃ t, exec (.relayReply r) s = .next t ∧ PollTaken s t ex r.head .relay ∧
      ∀ (w k : Nat) (holds : List Bool) (hold closed : Bool), ex.online = true →
        ex.frame.payload = .relay w holds → holds[k]? = some hold → r.closed[k]? = some closed →
        ((s.circuitZone ex.frame.address k).isSome = true →
          let c := s.circuit ex.frame.address k
          let d := t.circuit ex.frame.address k
          (hold = closed → d.count = 0 ∧ d.fault = .none) ∧
          (hold ≠ closed → d.openSort = hold ∧
            (1 ≤ c.count → c.openSort = hold → d.count = 2 ∧ d.fault = if hold then .openFault else .welded) ∧
            (c.count = 0 ∨ c.openSort ≠ hold → d.count = 1 ∧ d.fault = c.fault))) ∧
        (s.circuitZone ex.frame.address k = none → t.circuit ex.frame.address k = s.circuit ex.frame.address k)

/-- A valid REFUGE reply to a POLL sent to an ONLINE panel gives its refuge the door state, the door counts, the door occupancy, the battery
state and the pull station state, and gives its O2 and CO counts to the attached channels at slots 0 and 1; a valid SOUNDER reply makes the
head's pull station PULLED or not PULLED, and no other's; a change to PULLED in RUNNING while the evacuation machine is QUIET enters
ALERTING (R35, R39, R40, R54, R143, R154, R169). -/
def Obligations.PanelAndSounderReplies : Prop :=
  (∀ (s : State) (ex : Exchange) (r : RefugeReply), Awake s → Answered s ex r.head .refuge →
    ∃ t, exec (.refugeReply r) s = .next t ∧ PollTaken s t ex r.head .refuge ∧
      (∀ (i : Nat) (x : Refuge), ex.online = true →
        s.route.refuges.find? (fun p => decide (p.2.panel = ex.frame.address)) = some (i, x) → s.refuge? i = some x →
        let e := (r.inCount + 65536 - r.outCount % 65536) % 65536
        ∃ y, t.refuge? i = some y ∧ y.zone = x.zone ∧ y.panel = x.panel ∧ y.capacity = x.capacity ∧ y.o2 = x.o2 ∧ y.co = x.co ∧
          y.door = (if r.door = 0 then .closed else if r.door = 1 then .open else .fault) ∧
          y.inCount = r.inCount ∧ y.outCount = r.outCount ∧ y.doorOcc = (if 32768 ≤ e then 0 else min e x.capacity) ∧
          y.battery = (if r.battery = 0 then .ok else if r.battery = 1 then .low else .fault) ∧
          y.pulled = decide (r.pull ≠ 0) ∧
          ∀ j, j ≠ i → (t.refuge? j).map Refuge.place = (s.refuge? j).map Refuge.place) ∧
      ∀ (slot : Nat) (w : RawReading) (i : Nat) (c : Channel), ex.online = true → s.noTests → s.tablesRising →
        (slot = 0 ∧ w = r.o2) ∨ (slot = 1 ∧ w = r.co) → s.channelAt ex.frame.address slot = some i → s.channel? i = some c →
        (c.state = .normal ∨ c.state = .settling ∨ c.state = .fault) →
        let y := (({ chan := c, win := s.channelWindow i } : Cell).read { w with warmup := w.warmup || r.head.warmup }).1
        ∃ d, t.channel? i = some d ∧ { d with changed := c.changed } = y.chan ∧ t.channelWindow i = y.win) ∧
  ∀ (s : State) (ex : Exchange) (r : SounderReply), Awake s → Answered s ex r.head .sounder →
    ∃ t, exec (.sounderReply r) s = .next t ∧ PollTaken s t ex r.head .sounder ∧
      (ex.online = true →
        t.evac.pulled.contains ex.frame.address = r.pulled ∧
        (∀ b, b ≠ ex.frame.address → t.evac.pulled.contains b = s.evac.pulled.contains b) ∧
        (r.pulled = true → s.evac.pulled.contains ex.frame.address = false → s.running = true → s.evac.state = .quiet →
          t.evac.state = .alerting))

/-- A valid reply to a due IDENTIFY of a configured head gives the row the serial it carries; the head is ONLINE where kind and serial are
the configured ones, and MISMATCH where they are not (R35, R39). Every valid reply to a POLL, or to an IDENTIFY that is due or an
assignment's, gives its head its quality history and status: REJECTED_PREVIOUS makes the newest outcome before it BAD, its own outcome is
appended, GOOD on the first try and OTHER_END on the retry, whose end becomes the preferred end, and of more than 16 outcomes the oldest
leaves; POOR_LINK stands while 4 or more are not GOOD; LOCAL_FAULT is copied, and FAILSAFE_SINCE_LAST counts a fail-safe report (R28, R35,
R37, R38, R41). The head is reached on the end of the valid reply, a roll call's IDENTIFY too: the round keeps the highest position reached
on A and the lowest on B (R35, R36), taken at the reply, in the round that then runs, which are the model's choices (log entries 46 and 73).
A GAS or REFUGE head that a reply makes MISMATCH leaves its channels in FAULT LINK as R66 gives. A GAS or RELAY reply of another kind than
the head's is valid at any count, which is the model's choice (log entry 45). -/
def Obligations.IdentifyReplyMatchesTheHead : Prop :=
  let reached (x : Round) (side : LoopEnd) (position : Nat) : Round :=
    match side with
    | .a => { x with reachedA := max x.reachedA position }
    | .b => { x with reachedB := min x.reachedB position }
  (∀ (s : State) (ex : Exchange) (i : Instr) (h : ReplyHead), Awake s → s.loop.exchange = some ex → ex.abandoned = false →
    let a := ex.frame.address
    (s.head a).configured = true → h.address = a → (∀ r, s.loop.round = some r → r.markerOwed = false) →
    (ex.frame.kind = .poll ∧ h.toggle = ex.frame.toggle ∧
        (ex.purpose = .due ∨ ex.purpose = .interposed ∨ (∃ n, ex.purpose = .continuation n)) ∧
        ((∃ r : GasReply, i = .gasReply r ∧ h = r.head ∧ ((s.head a).kind = .gas → (s.head a).count = r.slots.length)) ∨
          (∃ r : ReaderReply, i = .readerReply r ∧ h = r.head ∧ sightingsFit r.sightings = true) ∨
          (∃ r : RelayReply, i = .relayReply r ∧ h = r.head ∧ ((s.head a).kind = .relay → (s.head a).count = r.closed.length)) ∨
          (∃ r : RefugeReply, i = .refugeReply r ∧ h = r.head) ∨ (∃ r : SounderReply, i = .sounderReply r ∧ h = r.head)) ∨
      ex.frame.kind = .identify ∧ (ex.purpose = .due ∨ ex.purpose = .assignCheck) ∧
        ∃ r : IdentifyReply, i = .identifyReply r ∧ h = r.head) →
    let own : PollOutcome := if ex.retry then .otherEnd else .good
    let old := (s.headInner a).history
    let revised := if h.rejected = true ∧ old ≠ [] then old.take (old.length - 1) ++ [.bad] else old
    let new := (if 16 ≤ revised.length then revised.drop 1 else revised) ++ [own]
    let faults := (new.filter fun o => !decide (o = .good)).length
    ∃ t, exec i s = .next t ∧ (t.headInner a).history = new ∧ (t.head a).newest = some own ∧ (t.head a).nonGood = faults ∧
      (t.head a).poorLink = decide (4 ≤ faults) ∧ (t.head a).localFault = h.localFault ∧
      (t.head a).failsafes = (if h.failsafe then min 65535 ((s.head a).failsafes + 1) else (s.head a).failsafes) ∧
      (t.head a).preferred = (if ex.retry then ex.side else (s.head a).preferred) ∧ (t.head a).lastReply = some s.stamp ∧
      (∀ x, s.loop.round = some x → t.loop.round = some (reached x ex.side (s.head a).position)) ∧
      ((s.head a).link = .online → (t.head a).link ≠ .online → (s.head a).kind = .gas ∨ (s.head a).kind = .refuge → s.noTests →
        ChannelsLeft s t a)) ∧
  (∀ (s : State) (ex : Exchange) (r : IdentifyReply), Awake s → s.loop.exchange = some ex → ex.frame.kind = .identify →
    ex.purpose = .rollCall → ex.abandoned = false → r.head.address = ex.frame.address → (s.head ex.frame.address).configured = true →
    ∃ t, exec (.identifyReply r) s = .next t ∧ ∀ x, s.loop.round = some x → x.markerOwed = false →
      ∃ y, t.loop.round = some y ∧
        { y with rollLeft := x.rollLeft } = reached x ex.side (s.head ex.frame.address).position) ∧
  ∀ (s : State) (ex : Exchange) (r : IdentifyReply), Awake s → s.loop.exchange = some ex → ex.frame.kind = .identify →
    ex.purpose = .due → ex.abandoned = false → r.head.address = ex.frame.address → (s.head ex.frame.address).configured = true →
    (s.head ex.frame.address).link ≠ .clash → (s.head ex.frame.address).link ≠ .unconfigured →
    (∀ x, s.loop.round = some x → x.markerOwed = false) →
    ∃ t, exec (.identifyReply r) s = .next t ∧ t.loop.exchange = none ∧
      (let h := s.head ex.frame.address
       let h' := t.head ex.frame.address
       h'.identified = some r.serial ∧ h'.missed = 0 ∧ h'.lastReply = some s.stamp ∧ h'.kind = h.kind ∧ h'.serial = h.serial ∧
       h'.link = if h.kind = r.kind ∧ h.serial = some r.serial then .online else .mismatch) ∧
      ∀ b, b ≠ ex.frame.address → t.head b = s.head b

/-- The end of a round, when the loop's next work is it: the round count rises, the heads of a BROKEN loop whose due poll was a missed round
and whose position lies inside the break span are OFFLINE, and no round runs, unless one is owed, which then begins (R29, R30, R36); the
plan count rises, and the round's windows mode is kept for the comparison of the next round's start (R32). It is reported to the evacuation
machine: the second end of round since an entry to ALERTING during a round, the first since any other entry, takes the machine to ACCOUNTED,
OVERDUE or MUSTERING by the unaccounted count and the deadline, and an end before it is counted (R157); an entry that this event brings
counts it as the first of two, which is inferred (log entry 68). That a head retired and set anew in the round keeps its address's miss is
the model's choice (log entry 62), and so is that a head lies inside by its loop position at the round's end (log entry 73). That a CLASH
head inside the span stays CLASH, against R39's whatever its state was, is the model's reading (log entry 25). -/
def Obligations.RoundEndCountsTheRound : Prop :=
  ∀ (s : State) (r : Round), Awake s → s.nextWork = .roundEnd → s.loop.round = some r →
    ∃ t, exec .roundEnd s = .next t ∧ t.loop.rounds = s.loop.rounds + 1 ∧ t.loop.roundOwed = false ∧
      (s.loop.roundOwed = false → t.loop.round = none ∧ t.loop.exchange = none ∧
        t.loop.plan = min 65535 (s.loop.plan + 1) ∧ t.loop.lastWindows = some r.windows) ∧
      (s.loop.roundOwed = true → t.loop.round.isSome = true ∧ ∃ x, t.loop.exchange = some x ∧ x.frame.kind = .marker) ∧
      (s.evac.state = .alerting →
        if (if s.evac.roundAtEntry then 2 else 1) ≤ s.evac.roundEnds + 1 then
          t.evac.state = if s.evac.unaccounted = 0 then .accounted else if s.evac.deadlinePassed then .overdue else .mustering
        else t.evac.state = .alerting ∧ t.evac.roundEnds = s.evac.roundEnds + 1) ∧
      (s.evac.state = .quiet ∨ s.evac.state = .asking →
        (t.evac.state = .quiet ∨ t.evac.state = .asking ∨ t.evac.state = .alerting) ∧
        (t.evac.state = .alerting → t.evac.roundAtEntry = true ∧ t.evac.roundEnds = 1)) ∧
      (s.loop.state = .whole → ∀ a, { t.head a with finding := .none } = { s.head a with finding := .none }) ∧
      (s.loop.state = .broken → t.loop.span = some (r.reachedA, r.reachedB) ∧
        ∀ a, (t.head a).link =
          if a ∈ r.missed ∧ (s.head a).configured = true ∧ r.reachedA < (s.head a).position ∧
            (s.head a).position < r.reachedB ∧ (s.head a).link ≠ .clash then .offline else (s.head a).link)

/-- The tries of a roll call and the check of an address assignment. The second try at an address classifies it: identified by one good
reply or two that agree, clash by two that differ or two garbled, absent otherwise, with the link state, finding and serials of R45; the
next address follows, and after address 63 the roll call ends, a ROLL CALL order OK with the counts of the findings (R44, R46). An
assignment's IDENTIFY that brings the named serial ends it OK with the rounds used, identifies the target and takes the serial from every
other row and from the clashes that hold it; without it the third round ends it TIMEOUT (R47). That a single try's reply resets no missed
rounds is the model's reading (log entry 47). -/
def Obligations.RollCallAndAssignment : Prop :=
  ∀ (s : State) (ex : Exchange), Awake s → s.loop.exchange = some ex → ex.frame.kind = .identify → ex.abandoned = false →
    (∀ r, s.loop.round = some r → r.markerOwed = false) → s.noTests →
    let a := ex.frame.address
    let ends (i : Instr) (y : TryResult) : Prop :=
      (∃ r, i = .identifyReply r ∧ r.head.address = a ∧ y = .good r.kind r.serial) ∨
      (i = .garbledReply ∧ ex.retry = true ∧ y = .garbled) ∨
      (i = .responseWindowExpiry ∧ ex.retry = true ∧ ex.begun = false ∧ s.due ex.sentAt 4 = true ∧
        y = if ex.garbled then .garbled else .silent)
    let identified (t : State) (k : HeadKind) (n : Nat) : Prop :=
      let h := s.head a
      let matching := h.kind = k ∧ h.serial = some n
      (t.head a).identified = some n ∧ (t.head a).missed = 0 ∧ (t.headInner a).clashSerials = [] ∧
      (h.configured = true → (matching → (t.head a).link = .online ∧ (t.head a).finding = .none) ∧
        (¬matching → (t.head a).link = .mismatch ∧ (t.head a).finding = .mismatch)) ∧
      (h.configured = false → (t.head a).link = .unconfigured ∧ (t.head a).finding = .found)
    (∀ (rc : RollCall) (i : Instr) (y : TryResult), ex.purpose = .rollCall → s.loop.rollCall = some rc → rc.begun = true →
      rc.address = a → ends i y →
      ∃ t, exec i s = .next t ∧ t.loop.exchange = none ∧ (∀ b, b ≠ a → t.head b = s.head b) ∧
        (rc.tries = [] → t.loop.rollCall = some { rc with tries := [y] } ∧ (t.head a).link = (s.head a).link ∧
          (t.head a).missed = (s.head a).missed ∧ (t.head a).identified = (s.head a).identified) ∧
        ∀ x, rc.tries = [x] →
          (∀ r, s.loop.round = some r → (t.loop.round.map (·.rollLeft)) = some (r.rollLeft - 1)) ∧
          (∀ k n, (x = .good k n ∧ (y = .good k n ∨ y = .garbled ∨ y = .silent)) ∨ (y = .good k n ∧ (x = .garbled ∨ x = .silent)) →
            identified t k n) ∧
          (∀ k n k' n', x = .good k n → y = .good k' n' → (k ≠ k' ∨ n ≠ n') →
            (t.head a).link = .clash ∧ (t.head a).finding = .clash ∧ (t.headInner a).clashSerials = [n, n'] ∧
            (t.head a).identified = (s.head a).identified) ∧
          (x = .garbled → y = .garbled →
            (t.head a).link = .clash ∧ (t.head a).finding = .clash ∧ (t.headInner a).clashSerials = [] ∧
            (t.head a).identified = (s.head a).identified) ∧
          ((x = .silent ∧ (y = .silent ∨ y = .garbled)) ∨ (x = .garbled ∧ y = .silent) →
            (t.head a).link = (if (s.head a).configured then .offline else .unconfigured) ∧ (t.headInner a).clashSerials = [] ∧
            ((s.head a).configured = false → (t.head a).finding = .none) ∧ (t.head a).identified = (s.head a).identified) ∧
          (a < 63 → t.loop.rollCall = some { rc with address := a + 1, tries := [] }) ∧
          (a = 63 → t.loop.rollCall = none ∧
            ∀ e, rc.automatic = false → Waiting s e 0x10 .loop 0 →
              let count (f : Finding) : Byte := BitVec.ofNat 8 (t.loop.heads.filter fun p => decide (p.2.finding = f)).length
              EndShown s t e .ok 0 [count .found, count .clash, count .mismatch])) ∧
    ∀ (x : Assignment) (i : Instr) (y : TryResult), ex.purpose = .assignCheck → s.loop.assignment = some x → x.begun = true →
      x.target = a → ends i y →
      ∃ t, exec i s = .next t ∧ t.loop.exchange = none ∧
        (∀ k, y = .good k x.serial → t.loop.assignment = none ∧ identified t k x.serial ∧
          (∀ b, b ≠ a →
            let h := s.head b
            let h' := t.head b
            let clash := h.link = .clash ∧ x.serial ∈ (s.headInner b).clashSerials
            h'.identified = (if h.identified = some x.serial then none else h.identified) ∧ h'.configured = h.configured ∧
            h'.kind = h.kind ∧ h'.serial = h.serial ∧
            (clash → h'.link = (if h.configured then .unknown else .unconfigured) ∧ (t.headInner b).clashSerials = []) ∧
            (h.link ≠ .clash → h.identified = some x.serial →
              (h.configured = true → h'.link = .unknown) ∧
              (h.configured = false → h'.link = h.link ∧ h'.finding = .none)) ∧
            (h.identified ≠ some x.serial → ¬clash → h' = h)) ∧
          ∀ e, Waiting s e 0x11 .loop 0 → EndShown s t e .ok 0 [BitVec.ofNat 8 x.rounds]) ∧
        ((∀ k, y ≠ .good k x.serial) → (∀ b, b ≠ a → t.head b = s.head b) ∧
          (x.rounds < 3 → t.loop.assignment = some x) ∧
          (3 ≤ x.rounds → t.loop.assignment = none ∧ ∀ e, Waiting s e 0x11 .loop 0 → EndShown s t e .timeout 0 []))

/-! ### Timers -/

/-- The expiry of a zone's blind grace in RUNNING, with no healthy CH4 channel, trips the zone: the latch is set and the relay command is
OPEN (R80, R82, R83). -/
def Obligations.BlindGraceTripsTheZone : Prop :=
  ∀ (z : Nat) (g : Grace) (s : State), Awake s → s.running = true → lookupAt s.zone.grace z = some g → s.due g.start g.length = true →
    (s.zoneRec z).inUse = true → (s.zoneRec z).powered = true → (s.zoneRec z).trip = .blindGrace →
    (s.aggregate z .ch4).healthy = 0 → s.externalTrip z = false → s.relaySafe →
    ∃ t, exec (.blindGraceExpiry z) s = .next t ∧ t.latched z = true ∧ (t.zoneRec z).trip = .tripped ∧
      (t.zoneRec z).closed = false ∧ (∀ y, (t.zoneRec y).conf = (s.zoneRec y).conf) ∧ t.outline = s.outline ∧
      (∀ n, (∀ e ∈ s.orders.inFlight, e.slot ≠ n) → sameSlot s t n)

/-- A bump test that is the only test in flight ends TIMEOUT at the end of its window, with qualifier 1 where no reading reached A and 2
where one did, and its channel enters RECOVERY (R96, Table 5-1). A self check that is the only one ends FAILED at its step timer, with the
step plus 0x80, and its channels return to service (R102, R103). A channel still in RECOVERY at the end of its 120 s enters FAULT with cause
SLOW_RECOVERY (R97). -/
def Obligations.TestTimersEndTheTests : Prop :=
  ∀ (s : State), Awake s →
    (∀ (i : Nat) (b : BumpRec) (c : Channel) (e : InFlight), s.tests.bumps = [(i, b)] → s.tests.cals = [] → s.tests.checks = [] →
      s.due b.start b.length = true → s.channel? i = some c → c.state = .bump → Waiting s e 0x21 .channel i →
      ∃ t d, exec (.bumpWindowExpiry i) s = .next t ∧
        (b.timeAtA = none → EndShown s t e .timeout 1
          ([0xFF#8, 0xFF#8, 0xFF#8, 0xFF#8] ++ leBytes 2 b.extreme ++ [BitVec.ofNat 8 b.highest, 0xFF#8])) ∧
        (∀ a, b.timeAtA = some a → EndShown s t e .timeout 2
          (leBytes 2 (min 65535 (elapsed a b.start / 100)) ++
            leBytes 2 (min 65535 (elapsed (b.start + BitVec.ofNat 48 b.length) a / 100)) ++ leBytes 2 b.extreme ++
            [BitVec.ofNat 8 b.highest, 0xFF#8])) ∧
        t.noTests ∧ lookupAt t.tests.recoveries i = some s.now ∧ t.channel? i = some d ∧ d.state = .recovery ∧ d.mean = none ∧
        d.level = 0 ∧ d.conf = c.conf ∧ (∀ j, j ≠ i → t.channel? j = s.channel? j) ∧ t.outline = s.outline) ∧
    (∀ (a k : Nat) (start : Clock) (x : CheckRec) (e : InFlight), s.tests.bumps = [] → s.tests.cals = [] →
      s.tests.checks = [(a, x)] → x.step = some k → x.timer = some start → s.due start stepTime = true →
      Waiting s e 0x22 .head a →
      ∃ t, exec (.stepTimerExpiry a) s = .next t ∧ EndShown s t e .failed (k + 0x80) x.bytes ∧ t.noTests ∧
        (∀ i c, s.channel? i = some c → c.head = a → c.state = .selfcheck →
          ∃ d, t.channel? i = some d ∧ d.conf = c.conf ∧
            (s.headOnline a = true → s.attached c = true → d.state = .settling ∧ d.mean = none) ∧
            (¬(s.headOnline a = true ∧ s.attached c = true) → d.state = .fault ∧ d.cause = some .link)) ∧
        t.outline = s.outline) ∧
    (∀ (i : Nat) (start : Clock) (c : Channel), s.noTests → lookupAt s.tests.recoveries i = some start →
      s.due start 120000 = true → s.channel? i = some c → c.state = .recovery → s.tablesRising →
      ∃ t d, exec (.recoveryExpiry i) s = .next t ∧ t.channel? i = some d ∧ d.state = .fault ∧ d.cause = some .slowRecovery ∧
        d.mean = none ∧ d.level = 0 ∧ d.conf = c.conf ∧ lookupAt t.tests.recoveries i = none ∧
        (∀ j, j ≠ i → t.channel? j = s.channel? j) ∧ t.outline = s.outline)

/-- A miner not seen for the lost time becomes LOST, keeping the zone, or OUT where PRESENT in an exit zone; a vehicle PRESENT becomes LOST,
or OUT in an exit zone (R112, R128). That an expiry that is not due has no effect is the model's choice (log entry 12). -/
def Obligations.LostTagsLeave : Prop :=
  ∀ (i : Nat) (s : State), Awake s →
    (∀ m : Miner, s.miner? i = some m →
      (s.minerOverdue m = false → exec (.lostTimerExpiry i) s = .next s) ∧
      ((m.state = .present ∨ m.state = .atRefuge) → m.lastSeen = none → exec (.lostTimerExpiry i) s = .next s) ∧
      ∀ seen, (m.state = .present ∨ m.state = .atRefuge) → m.lastSeen = some seen →
        s.supply.policy.lostTime * 1000 ≤ elapsed s.now seen →
        let out := m.state = .present ∧ (∃ z, m.zone = some z ∧ (s.zoneRec z).kind = .exit)
        ∃ t, exec (.lostTimerExpiry i) s = .next t ∧
          (¬out → ∃ m', t.miner? i = some m' ∧ m'.state = .lost ∧ m'.zone = m.zone ∧ m'.tag = m.tag ∧ m'.lastSeen = m.lastSeen) ∧
          (out → s.tablesRising → (m.person ≠ 0 ∨ s.evac.state ≠ .quiet) →
            ∃ m', t.miner? i = some m' ∧ m'.state = .out ∧ m'.zone = m.zone ∧ m'.tag = m.tag) ∧
          (out → s.tablesRising → m.person = 0 → s.evac.state = .quiet → t.miner? i = none) ∧
          (∀ j, j ≠ i → (t.miner? j).map Miner.place = (s.miner? j).map Miner.place) ∧
          t.outline = ({ s with people.pages := t.people.pages } : State).outline) ∧
    ∀ (v : Vehicle), s.vehicle? i = some v →
      (s.vehicleOverdue v = false → exec (.vehicleLostExpiry i) s = .next s) ∧
      ∀ seen, v.state = .present → v.lastSeen = some seen → s.supply.policy.lostTime * 1000 ≤ elapsed s.now seen →
        ∃ t w, exec (.vehicleLostExpiry i) s = .next t ∧ t.vehicle? i = some w ∧ w.zone = v.zone ∧ w.tag = v.tag ∧ w.host = v.host ∧
          ((∃ z, v.zone = some z ∧ (s.zoneRec z).kind = .exit) → w.state = .out) ∧
          (¬(∃ z, v.zone = some z ∧ (s.zoneRec z).kind = .exit) → w.state = .lost) ∧
          (∀ j, j ≠ i → (t.vehicle? j).map Vehicle.place = (s.vehicle? j).map Vehicle.place) ∧ t.outline = s.outline

/-- The end of the ask window in ASKING enters ALERTING with the drill flag clear, the note whether a round runs and no end of round
counted; the muster deadline sets the deadline-passed flag and takes MUSTERING to OVERDUE (R155, R157, R158). -/
def Obligations.EvacuationTimersAct : Prop :=
  ∀ (g : Grace) (s : State), Awake s → s.due g.start g.length = true →
    (s.evac.askTimer = some g → s.evac.state = .asking →
      ∃ t, exec .askWindowExpiry s = .next t ∧ t.evac.state = .alerting ∧ t.evac.drill = false ∧
        t.evac.roundAtEntry = s.loop.round.isSome ∧ t.evac.roundEnds = 0 ∧
        t.supply.retained.evacActive = true ∧ t.supply.retained.drill = false ∧ t.outline = s.outline) ∧
    (s.evac.deadline = some g →
      ∃ t, exec .musterDeadlineExpiry s = .next t ∧
        t.evac = { s.evac with
          deadline := none, deadlinePassed := true
          state := if s.evac.state = .mustering then .overdue else s.evac.state } ∧
        t.people = s.people ∧ t.zone = s.zone ∧ t.outline = s.outline)

/-! ### The rules -/

/-- The level of a channel rises at once to the highest level whose threshold its compared value reaches; otherwise it falls one level at a
time, while the compared value has moved away from the level's threshold by more than the hysteresis (R63 for CH4 and CO, R64 for O2 and
AIRVEL). -/
def Obligations.LevelsFollowTheThresholds : Prop :=
  ∀ (c : Channel) (cur m v : Nat), cur ≤ 3 →
    let l (n : Nat) := if n = 1 then c.l1 else if n = 2 then c.l2 else c.l3
    let next := c.evaluate cur m v
    ((c.kind = .ch4 ∨ c.kind = .co) →
      let x (n : Nat) := if n = 3 then max m v else m
      ((∃ n, cur < n ∧ n ≤ 3 ∧ l n ≤ x n) → next ≤ 3 ∧ cur < next ∧ l next ≤ x next ∧ ∀ n, next < n → n ≤ 3 → x n < l n) ∧
      ((∀ n, cur < n → n ≤ 3 → x n < l n) →
        next ≤ cur ∧ (∀ n, next < n → n ≤ cur → x n + c.hyst < l n) ∧ (1 ≤ next → l next ≤ x next + c.hyst) ∧
        ∀ n, 1 ≤ n → n ≤ 3 → l n ≤ x n → n ≤ next)) ∧
    ((c.kind = .o2 ∨ c.kind = .airvel) →
      let x (n : Nat) := if n = 3 then min m v else m
      ((∃ n, cur < n ∧ n ≤ 3 ∧ x n ≤ l n) → next ≤ 3 ∧ cur < next ∧ x next ≤ l next ∧ ∀ n, next < n → n ≤ 3 → l n < x n) ∧
      ((∀ n, cur < n → n ≤ 3 → l n < x n) →
        next ≤ cur ∧ (∀ n, next < n → n ≤ cur → l n + c.hyst < x n) ∧ (1 ≤ next → x next ≤ l next + c.hyst) ∧
        ∀ n, 1 ≤ n → n ≤ 3 → x n ≤ l n → n ≤ next))

/-- The conversion of a raw count with zero count Z, span count S and span gas G (R59): the exact quotient of (r − Z) × G by S − Z, rounded
to the nearest integer with halves up, 0 below the zero count, limited to full scale; OVER_RANGE is told exactly where it exceeds full
scale, and every instant value lies within full scale. -/
def Obligations.ReadingsAreConverted : Prop :=
  ∀ (c : Channel) (r : Nat), c.zero + 64 ≤ c.span →
    let d := c.span - c.zero
    let u := if c.zero ≤ r then ((r - c.zero) * c.gas + d / 2) / d else 0
    c.unbounded r = u ∧
    (c.zero ≤ r → 2 * u * d ≤ 2 * ((r - c.zero) * c.gas) + d ∧ 2 * ((r - c.zero) * c.gas) < 2 * u * d + d) ∧
    c.convert r = (if u ≤ c.kind.fullScale then u else c.kind.fullScale) ∧ c.convert r ≤ c.kind.fullScale ∧
    (c.overScale r = true ↔ c.kind.fullScale < u)

/-- At every evaluation a zone is COVERED exactly while at least one of its CH4 channels is healthy, at least min(V, configured count) are,
and none of the healthy ones is at level 2 or 3 (R78). A powered zone in RUNNING whose trip state is NORMAL or BLIND_GRACE trips with cause
GAS, its latch set, where at least one CH4 channel is healthy and at least min(V, healthy count) of them stand at L3; an unpowered one does
not trip with cause GAS (R79). The external trip, judged first, is apart (R77, R81). -/
def Obligations.CoverAndGasTrip : Prop :=
  ∀ (s : State) (z : Nat), (s.zoneRec z).inUse = true →
    let a := s.zoneRec z
    let t := s.evalZone z
    let b := t.zoneRec z
    let healthy (c : Channel) : Bool :=
      (decide (c.state = .normal) || decide (c.state = .settling)) && (s.head c.head).configured
        && decide ((s.head c.head).link = .online)
    let count (p : Channel → Bool) : Nat :=
      (s.air.channels.filter fun x => decide (x.2.zone = some z) && decide (x.2.kind = .ch4) && p x.2).length
    let h := count healthy
    (b.covered = true ↔
      1 ≤ h ∧ min a.vote (count fun _ => true) ≤ h ∧
        ∀ x ∈ s.air.channels, x.2.zone = some z → x.2.kind = .ch4 → healthy x.2 = true → x.2.level < 2) ∧
    (s.running = true → ¬(s.supply.in4.status = true ∧ s.supply.in4Zone = some z) → a.trip = .normal ∨ a.trip = .blindGrace →
      (a.powered = true → 1 ≤ h → min a.vote h ≤ (count fun c => healthy c && decide (c.level = 3)) →
        b.trip = .tripped ∧ b.cause = some .gas ∧ t.latched z = true ∧ b.closed = false) ∧
      (a.powered = false → b.trip = .normal ∧ b.cause = a.cause ∧ t.latched z = s.latched z))

/-- One evaluation of a zone in use, stage by stage (R75, R77, R80 to R83, R86 to R88): the aggregates; in RUNNING the trip state with
cause, latch and grace timer, by external trip, standing trip, CH4 vote, the end of blind grace and the entry into it; the relay command;
evac-gas and passable; the mobile warning and the relay fault; the condition by rank. The configuration, the counts of tags and every other
zone stay, and an entry not in use is not evaluated. -/
def Obligations.ZoneEvaluationJudges : Prop :=
  ∀ (s : State) (z : Nat),
    let a := s.zoneRec z
    let t := s.evalZone z
    let b := t.zoneRec z
    let healthy (c : Channel) : Bool :=
      (decide (c.state = .normal) || decide (c.state = .settling)) && (s.head c.head).configured
        && decide ((s.head c.head).link = .online)
    let count (k : ChannelKind) (p : Channel → Bool) : Nat :=
      (s.air.channels.filter fun x => decide (x.2.zone = some z) && decide (x.2.kind = k) && p x.2).length
    let vote (k : ChannelKind) : Bool :=
      decide (1 ≤ count k healthy) && decide (min a.vote (count k healthy) ≤ count k fun c => healthy c && decide (c.level = 3))
    let one (p : Channel → Bool) : Bool := s.air.channels.any fun x => decide (x.2.zone = some z) && p x.2
    let away (n : Nat) : Bool := (s.head n).configured && !decide ((s.head n).link = .online)
    let external : Bool := s.supply.in4.status && decide (s.supply.in4Zone = some z)
    (a.inUse = false → t = s) ∧
    (a.inUse = true →
      (∀ k, (b.agg k).configured = (count k fun _ => true) ∧ (b.agg k).healthy = count k healthy ∧
        (b.agg k).atL3 = (count k fun c => healthy c && decide (c.level = 3)) ∧
        (∀ x ∈ s.air.channels, x.2.zone = some z → x.2.kind = k → healthy x.2 = true → x.2.level ≤ (b.agg k).highest) ∧
        ((b.agg k).highest = 0 ∨
          ∃ x ∈ s.air.channels, x.2.zone = some z ∧ x.2.kind = k ∧ healthy x.2 = true ∧ x.2.level = (b.agg k).highest)) ∧
      (s.running = false → b.trip = a.trip ∧ b.cause = a.cause ∧ t.latched z = s.latched z ∧ b.closed = false) ∧
      (s.running = true →
        b.trip =
          (if external ∨ a.trip = .tripped then .tripped
           else if a.powered ∧ vote .ch4 then .tripped
           else if a.powered = false ∨ 1 ≤ count .ch4 healthy then .normal
           else if a.trip = .blindGrace then .blindGrace
           else if a.closed then (if s.supply.policy.blindGrace = 0 then .tripped else .blindGrace)
           else .normal) ∧
        b.cause =
          (if external then some .external
           else if a.trip = .tripped then a.cause
           else if a.powered ∧ vote .ch4 then some .gas
           else if b.trip = .tripped then some .blind
           else a.cause) ∧
        (t.latched z = true ↔ s.latched z = true ∨ (b.trip = .tripped ∧ a.trip ≠ .tripped)) ∧
        (b.trip = .blindGrace → a.trip ≠ .blindGrace →
          lookupAt t.zone.grace z = some ⟨s.now, s.supply.policy.blindGrace * 1000⟩) ∧
        (b.trip = .blindGrace → a.trip = .blindGrace → lookupAt t.zone.grace z = lookupAt s.zone.grace z) ∧
        (b.closed = true ↔ a.powered = true ∧ t.latched z = false ∧ b.trip ≠ .tripped ∧ (b.covered = true ∨ b.trip = .blindGrace))) ∧
      (b.evacGas = true ↔ vote .co = true ∨ vote .o2 = true) ∧ (b.passable = true ↔ a.blocked = false ∧ b.evacGas = false) ∧
      (b.mobile = true ↔ ∃ x ∈ s.air.channels, x.2.zone = some z ∧ x.2.kind = .ch4 ∧
        ∃ v ∈ s.haul.vehicles, v.2.state = .present ∧ v.2.zone = some z ∧ x.2.l1 ≤ v.2.onboard) ∧
      (b.relayFault = true ↔ ∃ c ∈ s.zone.circuits, (c.head, c.circuit) ∈ a.relays ∧ c.fault ≠ .none) ∧
      b.condition =
        (if s.evac.overlay = .evacuate then .evacuate
         else if s.evac.overlay = .drill then .drill
         else if b.trip = .tripped then .trip
         else if one (fun c => healthy c && decide (2 ≤ c.level)) ∨ 1 ≤ count .airvel (fun c => healthy c && decide (c.level = 3)) then .alarm
         else if one (fun c => healthy c && decide (c.level = 1)) ∨ b.mobile then .warn
         else if a.readers.any away ∨ a.sounders.any away ∨ (a.relays.any fun r => away r.1) ∨ one (fun c => away c.head)
           ∨ one (fun c => decide (c.state = .fault)) ∨ b.relayFault then .fault
         else .normal) ∧
      b.conf = a.conf ∧ b.occupants = a.occupants ∧ b.vehicles = a.vehicles ∧
      ∀ y, y ≠ z → t.zoneRec y = s.zoneRec y ∧ t.latched y = s.latched y)

/-- What the Alarm Output Unit gives (R168, R170 to R172). A change of a zone's condition in its evaluation makes the zone's choice the
pattern that the condition map assigns, or silence, and inverts its sequence bit; a change of the map, or none, inverts nothing. While the
rates mode is RESERVE, the ONLINE sounder heads whose pattern bytes a judgement changes are marked for interposed polls (R33, R169). The
district condition is the highest of the zones in use, at least FAULT while the loop is BROKEN; each change of it is logged and restarts the
district play with an on-phase of the map's pattern, or silence. OUT3 is closed while RUNNING with no zone TRIPPED and the loop WHOLE, OUT4
while RUNNING with no latch set; each change is logged. They are judged at changes of condition, trip, latch and loop state. -/
def Obligations.AlarmOutputsFollow : Prop :=
  ∀ s : State, s.active = true →
    let map (c : ZoneCondition) : Option Nat := match c with
      | .normal => none
      | .fault => some s.supply.policy.patFault
      | .warn => some s.supply.policy.patWarn
      | .alarm => some s.supply.policy.patAlarm
      | .trip => some s.supply.policy.patTrip
      | .drill => some s.supply.policy.patDrill
      | .evacuate => some s.supply.policy.patEvacuate
    let wanted (t : State) (c : ZoneCondition) : Prop :=
      (∀ p ∈ t.zone.zones, p.2.inUse = true → p.2.condition.ctorIdx ≤ c.ctorIdx) ∧ (t.loop.state = .broken → 1 ≤ c.ctorIdx) ∧
      (c = .normal ∨ (t.loop.state = .broken ∧ c = .fault) ∨ ∃ p ∈ t.zone.zones, p.2.inUse = true ∧ p.2.condition = c)
    let contacts (t : State) : Prop :=
      (t.alarm.out3 = true ↔ t.supply.phase = .running ∧ (∀ p ∈ t.zone.zones, p.2.trip ≠ .tripped) ∧ t.loop.state = .whole) ∧
      (t.alarm.out4 = true ↔ t.supply.phase = .running ∧ t.supply.retained.latches = [])
    let play (t : State) : Prop :=
      (t.alarm.district = s.alarm.district → t.alarm.play = s.alarm.play) ∧
      (t.alarm.district ≠ s.alarm.district →
        t.alarm.play = { pattern := map t.alarm.district, cycles := 0, since := s.now
                         stage := if (map t.alarm.district).isSome then .on else .stopped } ∧
        { kind := 0x90, cls := 7, index := 0, a := s.alarm.district.ctorIdx, b := t.alarm.district.ctorIdx : News } ∈ t.work.news)
    let logged (t : State) : Prop :=
      (t.alarm.out3 ≠ s.alarm.out3 → { kind := 0x91, cls := 7, index := 0, a := 3, b := t.alarm.out3.toNat : News } ∈ t.work.news) ∧
      (t.alarm.out4 ≠ s.alarm.out4 → { kind := 0x91, cls := 7, index := 0, a := 4, b := t.alarm.out4.toNat : News } ∈ t.work.news)
    (∀ z, (s.zoneRec z).inUse = true →
      let a := s.zoneRec z
      let t := s.evalZone z
      let b := t.zoneRec z
      (t.choice z = if a.condition = b.condition then s.choice z else ⟨map b.condition, !(s.choice z).seq⟩) ∧
      (∀ y, y ≠ z → t.choice y = s.choice y) ∧ play t ∧ logged t ∧ (risingFrom 0 s.loop.heads = true → MarksFollow s t) ∧
      (a.condition = b.condition → t.alarm.district = s.alarm.district) ∧ (a.condition ≠ b.condition → wanted t t.alarm.district) ∧
      (a.trip = b.trip → t.latched z = s.latched z → t.alarm.out3 = s.alarm.out3 ∧ t.alarm.out4 = s.alarm.out4) ∧
      (a.trip ≠ b.trip ∨ t.latched z ≠ s.latched z → contacts t)) ∧
    (∀ heard,
      let t := s.judgeLoop heard
      t.loop.state = (if heard then .whole else .broken) ∧ play t ∧ logged t ∧
      (t.loop.state ≠ s.loop.state → wanted t t.alarm.district ∧ contacts t) ∧ (t.loop.state = s.loop.state → t = s)) ∧
    (risingFrom 0 s.loop.heads = true → MarksFollow s s.judgeAllChoices) ∧
    ∀ y, ((s.zoneRec y).inUse = true → s.judgeAllChoices.choice y = ⟨map (s.zoneRec y).condition, (s.choice y).seq⟩) ∧
      (y ∉ s.zonesInUse → s.judgeAllChoices.choice y = s.choice y)

/-- The tests take readings and reports, and end (R93, R95 to R97, R99, R100, R102, R103). A bump test keeps extreme, highest level and the
time at A, is COMPLETE at B and ends at a reading that is not clean; its channel goes to RECOVERY, which a reading past L1 clears. A
calibration collects eight clean counts and ends UNSTABLE, BAD_ARGUMENT or OK, by spread and candidate. A self check takes the reports of
its current step. An evaluation of a zone whose relay command was CLOSED notes for abort each test of a kind short of its vote; an abort,
and a link end, end the test with the values of its table. Channels of a test return SETTLING with an empty window, or FAULT LINK. The
events of one step are handed on at its end (log entries 9 and 43). That a self check short of several kinds is noted with the first of CH4,
CO, O2, AIRVEL is the model's choice (log entry 75), that a raw count above 4095 is railed like 4095 is inferred (log entry 18), and a
recovery's duration in truncated seconds is the model's choice (log entry 70). -/
def Obligations.TestsTakeReadings : Prop :=
  ∀ s : State,
    let bad (r : RawReading) : Option FaultCause :=
      if r.sensor then some .sensor else if r.warmup then some .warmup else if r.raw = 0 ∨ 4095 ≤ r.raw then some .signal else none
    let rising (c : Channel) : Bool := decide (c.kind = .ch4) || decide (c.kind = .co)
    let time (x y : Clock) : List Byte := leBytes 2 (min 65535 (elapsed x y / 100))
    let toA (b : BumpRec) : List Byte := match b.timeAtA with
      | some x => time x b.start
      | none => [0xFF#8, 0xFF#8]
    let tail (b : BumpRec) (k : Nat) : List Byte := leBytes 2 b.extreme ++ [BitVec.ofNat 8 b.highest, BitVec.ofNat 8 k]
    let steps (v : Tbl Nat) : List Byte := [1, 2, 3, 4].flatMap fun k => leBytes 2 ((lookupAt v k).getD 0xFFFF)
    let ended (t : State) (code : Nat) (k : TargetKind) (i : Nat) (r : OrderResult) (q : Nat) (vals : List Byte) : Prop :=
      t.work.ends = s.work.ends ++ [{ code := code, target := k, index := i, result := r, qualifier := q, values := vals }] ∧
      { kind := 0x40, cls := (if k = .head then 2 else 1), index := i, a := code * 256 + r.ctorIdx, b := q : News } ∈ t.work.news
    let back (t : State) (i : Nat) (c : Channel) : Prop :=
      ∃ d, t.channel? i = some d ∧ d.conf = c.conf ∧ d.mean = none ∧ d.level = 0 ∧ t.channelWindow i = [] ∧
        ((s.headOnline c.head = true ∧ s.attached c = true) → d.state = .settling ∧ d.cause = none) ∧
        (¬(s.headOnline c.head = true ∧ s.attached c = true) → d.state = .fault ∧ d.cause = some .link)
    let recovering (t : State) (i : Nat) (c : Channel) : Prop :=
      lookupAt t.tests.recoveries i = some s.now ∧ ∃ d, t.channel? i = some d ∧ d.conf = c.conf ∧ d.state = .recovery ∧
        d.cause = none ∧ d.mean = none ∧ d.level = 0 ∧ t.channelWindow i = []
    (∀ (i : Nat) (c : Channel) (r : RawReading), s.channel? i = some c →
      let t := s.reading i r
      let v := c.convert r.raw
      (∀ b, c.state = .bump → lookupAt s.tests.bumps i = some b →
        let reaches (x : Nat) : Bool := if rising c then decide (x ≤ v) else decide (v ≤ x)
        let level := c.evaluate c.level v v
        let b' : BumpRec := { b with
          extreme := if rising c then max b.extreme v else min b.extreme v
          highest := max b.highest level
          timeAtA := match b.timeAtA with
            | some x => some x
            | none => if reaches b.a then some s.now else none }
        (bad r = none → (b'.timeAtA = none ∨ reaches b.b = false) →
          lookupAt t.tests.bumps i = some b' ∧ t.work.ends = s.work.ends ∧
          ∃ d, t.channel? i = some d ∧ d.state = .bump ∧ d.v = v ∧ d.level = level) ∧
        (∀ x, bad r = none → b'.timeAtA = some x → reaches b.b = true →
          t.tests.bumps = dropAt s.tests.bumps i ∧ recovering t i c ∧
          ended t 0x21 .channel i .ok 0 (toA b' ++ time s.now x ++ tail b' 0xFF)) ∧
        ∀ k, bad r = some k → t.tests.bumps = dropAt s.tests.bumps i ∧ recovering t i c ∧
          ended t 0x21 .channel i .aborted 3 (toA b ++ [0xFF#8, 0xFF#8] ++ tail b k.ctorIdx)) ∧
      (∀ start, c.state = .recovery → lookupAt s.tests.recoveries i = some start →
        let cleared : Bool := if rising c then decide (v < c.l1) else decide (c.l1 < v)
        let done (n : Nat) : Prop := t.tests.recoveries = dropAt s.tests.recoveries i ∧
          { kind := 0x41, cls := 1, index := i, a := n, b := min 65535 (elapsed s.now start / 1000) : News } ∈ t.work.news
        (bad r = none → cleared = true → done 0 ∧ back t i c) ∧
        (bad r = none → cleared = false →
          t.tests = s.tests ∧ ∃ d, t.channel? i = some d ∧ d.state = .recovery ∧ d.v = v) ∧
        ∀ k, bad r = some k → done 2 ∧ ∃ d, t.channel? i = some d ∧ d.state = .fault ∧ d.cause = some k) ∧
      ∀ m, c.state = .cal → lookupAt s.tests.cals i = some m →
        (∀ k, bad r = some k → t.tests.cals = dropAt s.tests.cals i ∧ back t i c ∧
          ended t 0x23 .channel i .aborted 3
            [0#8, 0#8, 0#8, 0#8, BitVec.ofNat 8 m.samples.length, 0#8, 0#8, BitVec.ofNat 8 k.ctorIdx]) ∧
        (bad r = none → m.samples.length < 7 →
          lookupAt t.tests.cals i = some { m with samples := m.samples ++ [r.raw] } ∧ t.work.ends = s.work.ends) ∧
        ∀ lo hi, bad r = none → m.samples.length = 7 → (∀ x ∈ m.samples ++ [r.raw], lo ≤ x ∧ x ≤ hi) →
          lo ∈ m.samples ++ [r.raw] → hi ∈ m.samples ++ [r.raw] →
          let mean := ((m.samples ++ [r.raw]).foldl (· + ·) 0 + 4) / 8
          let newZero := if m.span then c.zero else mean
          let newSpan := if m.span then mean else c.span
          let old := if m.span then c.span else c.zero
          let vals (x y : Nat) : List Byte := leBytes 2 x ++ leBytes 2 y ++ [8#8, 0#8, 0#8, 0#8]
          t.tests.cals = dropAt s.tests.cals i ∧
          (lo + 8 < hi → back t i c ∧ ended t 0x23 .channel i .unstable 0 (vals lo hi)) ∧
          (hi ≤ lo + 8 → newSpan < newZero + 64 → back t i c ∧ ended t 0x23 .channel i .badArgument 9 (vals old mean)) ∧
          (hi ≤ lo + 8 → newZero + 64 ≤ newSpan →
            back t i { c with zero := newZero, span := newSpan, gas := if m.span then m.gas else c.gas } ∧
            ended t 0x23 .channel i .ok 0 (vals old mean))) ∧
    (∀ (a carried step verdict value k : Nat) (x : CheckRec), lookupAt s.tests.checks a = some x → x.step = some k →
      let t := s.checkReport a carried step verdict value
      let values := storeAt x.values k value
      let next : Option Nat := [1, 2, 3, 4].find? fun n => decide (k < n) && !x.skip.testBit (n - 1)
      let far : Prop := ∃ c ∈ s.air.channels, c.2.head = a ∧ s.attached c.2 = true ∧
        (c.2.zero + s.supply.policy.zeroTolerance < value ∨ value + s.supply.policy.zeroTolerance < c.2.zero)
      let finished (r : OrderResult) (q : Nat) : Prop := t.tests.checks = dropAt s.tests.checks a ∧ ended t 0x22 .head a r q (steps values) ∧
        ∀ i c, s.channel? i = some c → c.head = a → c.state = .selfcheck → back t i c
      (carried ≠ k ∨ step ≠ k ∨ (verdict ≠ 1 ∧ verdict ≠ 2) → t = s) ∧
      (carried = k → step = k →
        (verdict = 2 → finished .failed k) ∧ (verdict = 1 → k = 3 → far → finished .failed 0x43) ∧
        (verdict = 1 → (k = 3 → ¬far) → next = none → finished .ok 0) ∧
        (∀ n, verdict = 1 → (k = 3 → ¬far) → next = some n →
          lookupAt t.tests.checks a = some { x with values := values, step := some n, timer := none } ∧ t.air = s.air ∧
          t.work.ends = s.work.ends))) ∧
    (∀ z (m : TestRef × Nat × ChannelKind), (s.zoneRec z).inUse = true →
      let b := (s.evalZone z).zoneRec z
      let held (ks : List ChannelKind) : Prop := match m.1 with
        | .bump i => i ∈ keysOf s.tests.bumps ∧ ∃ c, s.channel? i = some c ∧ c.zone = some z ∧ ks = [c.kind]
        | .cal i => i ∈ keysOf s.tests.cals ∧ ∃ c, s.channel? i = some c ∧ c.zone = some z ∧ ks = [c.kind]
        | .check a => a ∈ keysOf s.tests.checks ∧ ks = [ChannelKind.ch4, .co, .o2, .airvel].filter fun k => s.air.channels.any fun c =>
            decide (c.2.zone = some z) && decide (c.2.head = a) && decide (c.2.state = .selfcheck) && decide (c.2.kind = k)
      m ∈ (s.evalZone z).work.aborts ↔ m ∈ s.work.aborts ∨
        (m.2.1 = z ∧ (s.zoneRec z).closed = true ∧ ∃ ks, held ks ∧
          ks.find? (fun k => decide ((b.agg k).healthy < min b.vote (b.agg k).configured)) = some m.2.2)) ∧
    (∀ (i z : Nat) (k : ChannelKind) (c : Channel), s.channel? i = some c →
      let zk : List Byte := [BitVec.ofNat 8 z, BitVec.ofNat 8 k.ctorIdx]
      (∀ b, lookupAt s.tests.bumps i = some b →
        (let t := s.abortTest (.bump i) z k
         t.tests.bumps = dropAt s.tests.bumps i ∧ back t i c ∧ ended t 0x21 .channel i .aborted 1 (toA b ++ zk ++ tail b 0xFF)) ∧
        (let t := s.testsLeaveChannels [i]
         t.tests.bumps = dropAt s.tests.bumps i ∧ recovering t i c ∧
         ended t 0x21 .channel i .aborted 2 (toA b ++ [0xFF#8, 0xFF#8] ++ tail b 0xFF))) ∧
      ∀ m, lookupAt s.tests.bumps i = none → lookupAt s.tests.cals i = some m →
        (let t := s.abortTest (.cal i) z k
         t.tests.cals = dropAt s.tests.cals i ∧ back t i c ∧
         ended t 0x23 .channel i .aborted 1 ([0#8, 0#8] ++ zk ++ [BitVec.ofNat 8 m.samples.length, 0#8, 0#8, 0#8])) ∧
        (let t := s.testsLeaveChannels [i]
         t.tests.cals = dropAt s.tests.cals i ∧ back t i c ∧
         ended t 0x23 .channel i .linkLost 0 [0#8, 0#8, 0#8, 0#8, BitVec.ofNat 8 m.samples.length, 0#8, 0#8, 0#8])) ∧
    ∀ (a z : Nat) (k : ChannelKind) (x : CheckRec), lookupAt s.tests.checks a = some x →
      let all (t : State) : Prop := t.tests.checks = dropAt s.tests.checks a ∧
        ∀ i c, s.channel? i = some c → c.head = a → c.state = .selfcheck → back t i c
      (let t := s.abortTest (.check a) z k
       all t ∧ ended t 0x22 .head a .aborted 1
         ((steps x.values).take 2 ++ [BitVec.ofNat 8 z, BitVec.ofNat 8 k.ctorIdx] ++ (steps x.values).drop 4)) ∧
      (let t := s.testLeavesHead a
       all t ∧ ended t 0x22 .head a .linkLost 0 (steps x.values))

/-- One miner sighting and the counting of deliveries (R105, R106, R108, R110, R114, R119, R122). A tag on no entry is enrolled in the
lowest free entry, or dropped while the roster is full. A tag where its reader is, is refreshed; elsewhere it moves by a strength greater by
6, by staleness or from UNSEEN, LOST or OUT, and otherwise keeps its place; its flags and sequence are taken all the same. A press with a
new sequence asserts CALL_TAKEN and becomes the pending call where it outranks it. An acknowledgement is taken of a condition once
delivered. A valid reply counts each entry still marked sent and ends CALL_TAKEN at 2, CALL_ANSWER at 4 and a page that asks no
acknowledgement at once, with the seconds since its take truncated by the model's choice (log entry 70); an exchange that fails clears the
marks. -/
def Obligations.SightingsPlaceMiners : Prop :=
  ∀ (s : State) (reader z : Nat), Awake s → s.readerZone reader = some z →
    let placed (m : Miner) : Prop := m.zone = some z ∧ m.state = if (s.zoneRec z).kind = .refuge then .atRefuge else .present
    let heard (m : Miner) (x : Sighting) : Prop := m.strength = x.strength ∧ m.lastSeen = some s.now ∧ m.lastReader = some reader
    (∀ x : Sighting,
      let t := (s.minerSighting reader x).1
      (s.people.roster.find? (fun p => decide (p.2.tag = x.tag)) = none →
        ((∀ i, i < 256 → (s.miner? i).isSome = true) → s.minerSighting reader x = (s, true)) ∧
        ∀ i, i < 256 → s.miner? i = none → (∀ j, j < i → (s.miner? j).isSome = true) →
          (s.minerSighting reader x).2 = false ∧
          ∃ m, t.miner? i = some m ∧ m.tag = x.tag ∧ m.person = 0 ∧ placed m ∧ heard m x ∧ m.batteryLow = x.batteryLow ∧
            m.motionless = x.motionless ∧ m.lastSeq = some x.seq) ∧
      ∀ (i : Nat) (m : Miner), s.people.roster.find? (fun p => decide (p.2.tag = x.tag)) = some (i, m) → s.miner? i = some m →
        let here : Prop := (m.state = .present ∨ m.state = .atRefuge) ∧ m.zone = some z
        let away : Prop := m.state = .unseen ∨ m.state = .lost ∨ m.state = .out
        let stale : Prop := ∃ seen, m.lastSeen = some seen ∧
          2 * s.supply.policy.pollPeriod * (match s.loop.rates with | .mains => 1 | .battery => 2 | .reserve => 4) ≤ elapsed s.now seen
        let rank (c : Option CallCode) : Nat := match c with
          | none => 0
          | some .ok => 1
          | some .callMe => 2
          | some .help => 3
        let pressed : Prop := 1 ≤ x.call ∧ x.call ≤ 3 ∧ m.lastSeq ≠ some x.seq
        (s.minerSighting reader x).2 = false ∧
        ∃ m', t.miner? i = some m' ∧ m'.tag = m.tag ∧ m'.person = m.person ∧ m'.batteryLow = x.batteryLow ∧
          m'.motionless = x.motionless ∧ m'.lastSeq = some x.seq ∧
          (here → m'.zone = m.zone ∧ m'.state = m.state ∧ heard m' x) ∧
          (¬here → (m.strength + 6 ≤ x.strength ∨ stale ∨ away) → placed m' ∧ heard m' x) ∧
          (¬here → ¬(m.strength + 6 ≤ x.strength ∨ stale ∨ away) → m.lastSeen.isSome = true →
            m'.zone = m.zone ∧ m'.state = m.state ∧ m'.strength = m.strength ∧ m'.lastSeen = m.lastSeen ∧
            m'.lastReader = m.lastReader) ∧
          (pressed → (∃ d, t.condition? (.miner i) .callTaken = some d ∧ d.code = x.call) ∧
            (rank m.call < x.call → rank m'.call = x.call ∧ m'.callTime = some s.stamp) ∧
            (x.call ≤ rank m.call → m'.call = m.call ∧ m'.callTime = m.callTime)) ∧
          (¬pressed → m'.call = m.call ∧ m'.callTime = m.callTime) ∧
          (∀ j, j ≠ i → (t.miner? j).map Miner.place = (s.miner? j).map Miner.place) ∧
          ∀ k, x.ack = some (k.ctorIdx + 1) → here → ¬pressed →
            let taken : Prop := (s.condition? (.miner i) k).isSome = true ∧ 1 ≤ s.deliveries (.miner i) k
            (taken → k = .callTaken ∨ k = .callAnswer → t.condition? (.miner i) k = none) ∧
            (taken → k = .evacuate ∨ k = .withdraw ∨ k = .vehicleNear →
              t.condition? (.miner i) k = (s.condition? (.miner i) k).map fun c => { c with acked := true }) ∧
            (∀ p, taken → k = .page → lookupAt s.people.pages i = some p → p.ack = true → s.tablesRising →
              lookupAt t.people.pages i = none ∧ t.condition? (.miner i) .page = none ∧
              m'.pageTake = none ∧ m'.pageCode = none ∧ m'.pageAck = none) ∧
            (¬taken → t.condition? (.miner i) k = s.condition? (.miner i) k ∧ t.people.pages = s.people.pages)) ∧
    (∀ (pos : Nat) (l : DownList), s.listPosition reader = some pos → lookupAt s.people.lists pos = some l → s.tablesRising →
      let t := s.countDeliveries reader
      (∃ l', lookupAt t.people.lists pos = some l' ∧ l'.reader = l.reader ∧ l'.entries.length = l.entries.length ∧
        ∀ (k : Nat) (e e' : DownEntry), l.entries[k]? = some e → l'.entries[k]? = some e' →
          { e' with ended := e.ended } =
            if e.sent then { e with count := min 255 (e.count + 1), lastReader := some reader, sent := false } else e) ∧
      ∀ before e after, l.entries = before ++ e :: after → e.sent = true → e.ended = false →
        (∀ f ∈ before ++ after, f.isFor e.ref e.kind = false) →
        (∀ p ∈ s.people.lists, p.1 ≠ pos → ∀ f ∈ p.2.entries, f.isFor e.ref e.kind = false) →
        (∀ i, e.ref = .miner i → e.kind = .callTaken →
          t.condition? e.ref e.kind = if 1 ≤ e.count then none else s.condition? e.ref e.kind) ∧
        (∀ i, e.ref = .miner i → e.kind = .callAnswer →
          t.condition? e.ref e.kind = if 3 ≤ e.count then none else s.condition? e.ref e.kind) ∧
        ∀ i p m, e.ref = .miner i → e.kind = .page → lookupAt s.people.pages i = some p → s.miner? i = some m →
          (p.ack = true →
            lookupAt t.people.pages i = some { p with deliveries := min 255 (p.deliveries + 1), reader := some reader }) ∧
          (p.ack = false → lookupAt t.people.pages i = none ∧ t.condition? e.ref e.kind = none ∧
            t.miner? i = some { m with pageTake := none, pageCode := none, pageAck := none } ∧
            { code := 0x30, target := .roster, index := i, result := .ok, qualifier := 0
              values := [BitVec.ofNat 8 (min 255 (p.deliveries + 1)), BitVec.ofNat 8 reader] ++
                leBytes 2 (elapsed s.now p.start / 1000) : EndReport } ∈ t.work.ends)) ∧
    ∀ p ∈ (s.clearSent reader).people.lists, p.2.reader = reader → ∀ e ∈ p.2.entries, e.sent = false

/-- One vehicle sighting, the command components and the count of polls without an echo (R127 to R131, R133, R134). A sighting in a refuge
zone is passed over and one of a tag on no entry dropped. A vehicle PRESENT where its reader is, is refreshed; it moves by a strength
greater by 6, by staleness or when it was not PRESENT; speed, moving, onboard reading and echo are taken from every sighting. The effective
command is the strongest of host, zone, encounter, evacuation, onboard and crowded components, and a VEHICLE_COMMAND condition with it
stands exactly while the vehicle has not echoed it; each poll that carried the standing command counts, and the third is logged. -/
def Obligations.SightingsPlaceVehicles : Prop :=
  ∀ s : State,
    (∀ (reader z : Nat) (x : Sighting), Awake s → s.readerZone reader = some z →
      ((s.zoneRec z).kind = .refuge → s.vehicleSighting reader x = (s, false)) ∧
      ((s.zoneRec z).kind ≠ .refuge → s.haul.vehicles.find? (fun p => decide (p.2.tag = x.tag)) = none →
        s.vehicleSighting reader x = (s, true)) ∧
      ∀ (i : Nat) (v : Vehicle), (s.zoneRec z).kind ≠ .refuge →
        s.haul.vehicles.find? (fun p => decide (p.2.tag = x.tag)) = some (i, v) → s.vehicle? i = some v →
        let t := (s.vehicleSighting reader x).1
        let here : Prop := v.state = .present ∧ v.zone = some z
        let stale : Prop := ∃ seen, v.lastSeen = some seen ∧
          2 * s.supply.policy.pollPeriod * (match s.loop.rates with | .mains => 1 | .battery => 2 | .reserve => 4) ≤ elapsed s.now seen
        (s.vehicleSighting reader x).2 = false ∧
        ∃ w, t.vehicle? i = some w ∧ w.tag = v.tag ∧ w.number = v.number ∧ w.drive = v.drive ∧ w.host = v.host ∧
          w.batteryLow = x.batteryLow ∧
          (here ∨ v.strength + 6 ≤ x.strength ∨ stale ∨ v.state ≠ .present →
            w.zone = some z ∧ w.state = .present ∧ w.strength = x.strength ∧ w.lastSeen = some s.now ∧ w.lastReader = some reader) ∧
          (¬(here ∨ v.strength + 6 ≤ x.strength ∨ stale ∨ v.state ≠ .present) → v.lastSeen.isSome = true →
            w.zone = v.zone ∧ w.state = v.state ∧ w.strength = v.strength ∧ w.lastSeen = v.lastSeen ∧ w.lastReader = v.lastReader) ∧
          (∀ f, x.vehicle = some f →
            w.speed = min f.speed 40 ∧ w.moving = decide (3 ≤ f.speed) ∧ w.onboard = min f.onboard 500 ∧
            w.acked = (if f.echo = 0 then .none else if f.echo = 1 then .slow else if f.echo = 2 then .stop
              else if f.echo = 3 then .withdraw else v.acked)) ∧
          (x.vehicle = none → w.speed = v.speed ∧ w.moving = v.moving ∧ w.onboard = v.onboard ∧ w.acked = v.acked) ∧
          ∀ j, j ≠ i → (t.vehicle? j).map Vehicle.place = (s.vehicle? j).map Vehicle.place) ∧
    (∀ (i : Nat) (v : Vehicle), s.vehicle? i = some v →
      let t := s.refreshVehicles
      let there : Prop := v.state = .present ∨ v.state = .lost
      ∃ w, t.vehicle? i = some w ∧ w.place = v.place ∧ w.crowded = v.crowded ∧
        (there → (∃ z, v.zone = some z ∧ z ∈ s.haul.tripped) →
          w.zoneCmd = match v.drive with | .diesel => .withdraw | .electric => .stop) ∧
        (¬(there ∧ ∃ z, v.zone = some z ∧ z ∈ s.haul.tripped) → w.zoneCmd = .none) ∧
        ((∃ e ∈ s.haul.encounters, e.vehicle = i) → w.encounterCmd = .slow) ∧
        ((∀ e ∈ s.haul.encounters, e.vehicle ≠ i) → w.encounterCmd = .none) ∧
        w.evacCmd = (if s.evac.vehicleFlag then .withdraw else .none) ∧
        (there → s.supply.policy.onboardLimit ≤ v.onboard → w.onboardCmd = .stop) ∧
        (¬(there ∧ s.supply.policy.onboardLimit ≤ v.onboard) → w.onboardCmd = .none) ∧
        w.crowdedCmd = (if v.crowded then .slow else .none) ∧
        (∀ c, c = v.host ∨ c = w.zoneCmd ∨ c = w.encounterCmd ∨ c = w.evacCmd ∨ c = w.onboardCmd ∨ c = w.crowdedCmd →
          c.ctorIdx ≤ w.effective.ctorIdx) ∧
        (w.effective = v.host ∨ w.effective = w.zoneCmd ∨ w.effective = w.encounterCmd ∨ w.effective = w.evacCmd ∨
          w.effective = w.onboardCmd ∨ w.effective = w.crowdedCmd) ∧
        (w.effective = v.acked → t.condition? (.vehicle i) .vehicleCommand = none) ∧
        (w.effective ≠ v.acked → ∃ d, t.condition? (.vehicle i) .vehicleCommand = some d ∧ d.code = w.effective.ctorIdx)) ∧
    ∀ (e : DownEntry) (i : Nat) (v : Vehicle), e.ref = .vehicle i → e.kind = .vehicleCommand → s.vehicle? i = some v →
      let t := s.countUnacked [e]
      (∀ c, s.condition? e.ref .vehicleCommand = some c → c.code = e.code → c.created = e.created →
        t.vehicle? i = some { v with unacked := min 255 (v.unacked + 1) } ∧
        (v.unacked = 2 →
          { kind := 0x63, cls := 4, index := i, a := v.effective.ctorIdx, b := v.acked.ctorIdx : News } ∈ t.work.news) ∧
        (v.unacked ≠ 2 → t.work.news = s.work.news)) ∧
      ((∀ c, s.condition? e.ref .vehicleCommand = some c → c.code ≠ e.code ∨ c.created ≠ e.created) → t = s)

/-- The judgement of a refuge (R144 to R146): the tag occupancy counts the entries AT_REFUGE in its zone; each reason bit stands for its row
of the table, and the refuge is usable while none holds; the mismatch flag is set while the occupancies differ by more than 2. A change of
the usable flag is logged and asks for a recompute, and a change of the mismatch flag is logged. -/
def Obligations.RefugesAreJudged : Prop :=
  ∀ (s : State) (i : Nat) (old : Option Refuge) (x : Refuge), s.refuge? i = some x →
    let t := s.judgeRefuge i old
    let healthy (c : Channel) : Prop := (c.state = .normal ∨ c.state = .settling) ∧ (s.head c.head).configured = true ∧
      (s.head c.head).link = .online
    ∃ y, t.refuge? i = some y ∧ y.place = x.place ∧
      y.tagOcc = (s.people.roster.filter fun p => decide (p.2.state = .atRefuge) && decide (p.2.zone = some x.zone)).length ∧
      (y.reasons.testBit 0 = false ↔
        (s.head x.panel).configured = true ∧ (s.head x.panel).kind = .refuge ∧ (s.head x.panel).link = .online) ∧
      (y.reasons.testBit 1 = true ↔ x.door = .fault) ∧
      (y.reasons.testBit 2 = false ↔ ∃ c, s.channel? x.o2 = some c ∧ c.kind = .o2 ∧ healthy c ∧ c.level = 0) ∧
      (y.reasons.testBit 3 = false ↔ ∃ c, s.channel? x.co = some c ∧ c.kind = .co ∧ healthy c ∧ c.level < 2) ∧
      (y.reasons.testBit 4 = true ↔ x.battery = .fault) ∧ (y.reasons.testBit 5 = true ↔ x.capacity ≤ y.tagOcc) ∧ y.reasons < 64 ∧
      (y.usable = true ↔ y.reasons = 0) ∧
      (y.mismatch = true ↔ y.tagOcc + 2 < y.doorOcc ∨ y.doorOcc + 2 < y.tagOcc) ∧
      (∀ j, j ≠ i → t.refuge? j = s.refuge? j) ∧ t.work.recompute = (s.work.recompute || decide (x.usable ≠ y.usable)) ∧
      ∀ m : News, m ∈ t.work.news ↔ m ∈ s.work.news ∨
        (x.usable ≠ y.usable ∧ m = { kind := 0x71, cls := 5, index := i, a := y.usable.toNat, b := y.reasons }) ∨
        (x.mismatch ≠ y.mismatch ∧
          m = { kind := if y.mismatch then 0x72 else 0x73, cls := 5, index := i, a := y.doorOcc, b := y.tagOcc })

/-- The judgements of the evacuation machine. A rise of evac-gas is judged by declined flag, phase, state and policy, a pull by phase and
state, each logged with its effect; an entry to ALERTING notes whether a round runs and counts its ends from 0 (R157). A rise and a fall of
the flag are handed on by the evaluation that makes them (R86), and a fall clears the zone's declined flag and no other (R154); a drill is
converted by either: drill flag and retained drill flag clear, overlay EVACUATE, vehicle flag set, every REQUIRED entry's EVACUATE condition
REAL, the state and the counts as they were (R154, R155, R163). A report of a roster entry during the muster gives the entry its muster
state by the table of R159, in which any reported move of a SAFE or NOT_REQUIRED entry that is PRESENT counts as entering PRESENT, which is
inferred (log entry 30), and the needs-assist flag of a HELP press, the EVACUATE condition of R160, the counts and the state of R158; no
other entry changes. -/
def Obligations.EvacuationJudges : Prop :=
  ∀ s : State,
    let alerted (t : State) : Prop := t.evac.state = .alerting ∧ t.evac.drill = false ∧ t.evac.askingZone = none ∧
      t.evac.askTimer = none ∧ t.evac.deadline = some ⟨s.now, s.supply.policy.musterDeadline * 60000⟩ ∧
      t.evac.roundAtEntry = s.loop.round.isSome ∧ t.evac.roundEnds = 0 ∧
      t.supply.retained.evacActive = true ∧ t.supply.retained.drill = false
    let converted (t : State) (source : Nat) : Prop := t.evac.state = s.evac.state ∧ t.evac.drill = false ∧
      t.supply.retained.drill = false ∧ t.evac.overlay = .evacuate ∧ t.evac.vehicleFlag = true ∧
      t.evac.required = s.evac.required ∧ t.evac.unaccounted = s.evac.unaccounted ∧ t.evac.deadline = s.evac.deadline ∧
      (∀ i m, s.miner? i = some m → t.miner? i = some m ∧
        (m.muster = .required → ∃ d, t.condition? (.miner i) .evacuate = some d ∧ d.code = 0)) ∧
      { kind := 0x83, cls := 7, index := 0, a := source, b := s.evac.unaccounted : News } ∈ t.work.news
    (∀ z,
      let t := s.takeGas z
      let told (effect : Nat) : Prop :=
        { kind := 0x81, cls := 0, index := z, a := s.supply.policy.evacPolicy.ctorIdx, b := effect : News } ∈ t.work.news
      (z ∈ s.evac.declined → told 5 ∧ t.evac = s.evac) ∧
      (z ∉ s.evac.declined → s.running = false → told 6 ∧ t.evac = s.evac) ∧
      (z ∉ s.evac.declined → s.running = true →
        (s.evac.state = .quiet → s.supply.policy.evacPolicy = .off → told 4 ∧ t.evac = s.evac) ∧
        (s.evac.state = .quiet → s.supply.policy.evacPolicy = .auto → told 0 ∧ alerted t) ∧
        (s.evac.state = .quiet → s.supply.policy.evacPolicy = .ask → told 1 ∧ t.evac.state = .asking ∧ t.evac.askingZone = some z ∧
          t.evac.askedAt = s.now ∧ t.evac.askTimer = some ⟨s.now, s.supply.policy.askWindow * 1000⟩ ∧
          (s.evac.drill = false → t.evac.vehicleFlag = true)) ∧
        (s.evac.state = .asking → told 2 ∧ alerted t) ∧
        (s.evac.state ≠ .quiet → s.evac.state ≠ .asking →
          (s.evac.drill = true → told 3 ∧ converted t 2) ∧ (s.evac.drill = false → told 4 ∧ t.evac = s.evac)))) ∧
    (∀ cls index,
      let t := s.takePull cls index
      let told (effect : Nat) : Prop := { kind := 0x80, cls := cls, index := index, a := 256, b := effect : News } ∈ t.work.news
      (s.running = false → told 6 ∧ t.evac = s.evac) ∧
      (s.running = true →
        (s.evac.state = .quiet → told 0 ∧ alerted t) ∧ (s.evac.state = .asking → told 2 ∧ alerted t) ∧
        (s.evac.state ≠ .quiet → s.evac.state ≠ .asking →
          (s.evac.drill = true → told 3 ∧ converted t 1) ∧ (s.evac.drill = false → told 4 ∧ t.evac = s.evac)))) ∧
    (∀ z,
      let t := s.evalZone z
      t.evac.declined = s.evac.declined ∧
      ((s.zoneRec z).evacGas = false → (t.zoneRec z).evacGas = true → EvacTask.gasRise z ∈ t.work.evac) ∧
      ((s.zoneRec z).evacGas = true → (t.zoneRec z).evacGas = false → EvacTask.gasFall z ∈ t.work.evac)) ∧
    (s.work = Work.none → s.active = true → ∀ z,
      let t := ({ s with work.evac := [.gasFall z] } : State).finish
      (∀ y, y ∈ t.evac.declined ↔ y ∈ s.evac.declined ∧ y ≠ z) ∧ t.evac = { s.evac with declined := t.evac.declined }) ∧
    ∀ (i : Nat) (moved help : Bool),
      let t := s.musterReport i moved help
      (s.evac.state = .quiet ∨ s.evac.state = .asking → t = s) ∧
      (s.evac.state ≠ .quiet → s.evac.state ≠ .asking →
        (∀ m, s.miner? i = some m →
          let exit : Prop := ∃ z, m.zone = some z ∧ (s.zoneRec z).kind = .exit
          let saved : Prop := moved = true ∧
            ((m.muster = .required ∧ (m.state = .atRefuge ∨ m.state = .out)) ∨ (m.muster = .notRequired ∧ m.state = .atRefuge))
          let sought : Prop := moved = true ∧
            ((m.muster = .notRequired ∧ m.state = .present) ∨ (m.muster = .safe ∧ m.state = .present ∧ ¬exit))
          ∃ m', t.miner? i = some m' ∧ m'.place = m.place ∧ m'.assist = (m.assist || help) ∧
            (saved → m'.muster = .safe ∧ m'.accounted = m.accounted) ∧ (sought → m'.muster = .required) ∧
            (sought → m.muster = .safe → m'.accounted = false) ∧
            (¬saved → ¬sought → m'.muster = m.muster ∧ m'.accounted = m.accounted) ∧
            (m'.muster = .required → ∃ d, t.condition? (.miner i) .evacuate = some d ∧ d.code = s.evac.drill.toNat ∧
              (∀ z e n g, m.zone = some z → (s.escape z).way = some (e, n, g) → d.target = g ∧ d.next = n) ∧
              ((∀ z, m.zone = some z → (s.escape z).way = none) → d.target = 0xFF ∧ d.next = 0xFF)) ∧
            (m'.muster ≠ .required → t.condition? (.miner i) .evacuate = none) ∧
            (help = true → m.assist = false →
              { kind := 0x86, cls := 3, index := i, a := m.zone.getD 0xFF, b := m'.muster.ctorIdx : News } ∈ t.work.news)) ∧
        (∀ j, j ≠ i → t.miner? j = s.miner? j) ∧
        t.evac.safe = (t.people.roster.filter fun p => decide (p.2.muster = .safe)).length ∧
        t.evac.unaccounted = (t.people.roster.filter fun p => decide (p.2.muster = .required)).length ∧
        t.evac.required = t.evac.safe + t.evac.unaccounted ∧
        t.evac.assist = (t.people.roster.filter fun p => p.2.assist).length ∧
        t.evac.state =
          (if s.evac.state = .mustering ∨ s.evac.state = .overdue then (if t.evac.unaccounted = 0 then .accounted else s.evac.state)
           else if s.evac.state = .accounted ∧ t.evac.unaccounted ≠ 0 then (if s.evac.deadlinePassed then .overdue else .mustering)
           else s.evac.state))

/-- The targets are the zones in use that are passable and of kind EXIT or the zone of a usable refuge in use (R149). After a recompute
every target has distance 0 and names itself, and every passable zone with a finite distance d of at least 1 names as next a passable zone
that lists it as neighbour, whose distance is d − 1 and whose target is the same; a passable zone that a reached passable zone lists as
neighbour is reached itself, at a distance at most one greater, so each distance is the shortest; a passable zone that is no target and that
no passable zone in use lists as neighbour is UNREACHABLE. An impassable zone is IN_BAD_AIR: of its passable neighbours that are reached it
takes the one of the smallest distance, ties going to the earlier, with that distance plus one, capped at 31, and its target, and it is
UNREACHABLE where none is reached; a zone not in use is UNREACHABLE (R149, R150). The generation rises by one (R151). -/
def Obligations.EscapeWaysLeadToTargets : Prop :=
  ∀ s : State, (∀ p ∈ s.zone.zones, p.1 < 32) →
    let t := s.recompute
    let passable (z : Nat) : Prop := (s.zoneRec z).inUse = true ∧ (s.zoneRec z).passable = true
    let reached (b : Nat) : Option Way :=
      if (s.zoneRec b).inUse = true ∧ (s.zoneRec b).passable = true then (t.escape b).way else none
    t.route.generation = s.route.generation + 1 ∧ (∀ z, t.zoneRec z = s.zoneRec z) ∧
    (∀ z, z ∈ s.targets ↔ z < 32 ∧ passable z ∧
      ((s.zoneRec z).kind = .exit ∨ ∃ p ∈ s.route.refuges, p.2.usable = true ∧ p.2.zone = z)) ∧
    (∀ z ∈ s.targets, t.escape z = { way := some (0, z, z), badAir := false }) ∧
    (∀ z d n g, z < 32 → passable z → (t.escape z).way = some (d, n, g) → 1 ≤ d →
      passable n ∧ z ∈ (s.zoneRec n).neighbours ∧ ∃ m, (t.escape n).way = some (d - 1, m, g)) ∧
    (risingFrom 0 s.zone.zones = true → ∀ n w, reached n = some w → ∀ z ∈ (s.zoneRec n).neighbours, passable z →
      ∃ x, reached z = some x ∧ x.1 ≤ w.1 + 1) ∧
    (∀ z, z < 32 → passable z → (t.escape z).badAir = false ∧
      (z ∉ s.targets → (∀ n, passable n → z ∉ (s.zoneRec n).neighbours) → (t.escape z).way = none)) ∧
    (∀ z, z < 32 → (s.zoneRec z).inUse = true → (s.zoneRec z).passable = false → (t.escape z).badAir = true ∧
      ((∀ b ∈ (s.zoneRec z).neighbours, reached b = none) → (t.escape z).way = none) ∧
      ∀ before n after, (s.zoneRec z).neighbours = before ++ n :: after → ∀ w, reached n = some w →
        (∀ b ∈ before, ∀ x, reached b = some x → w.1 < x.1) → (∀ b ∈ after, ∀ x, reached b = some x → w.1 ≤ x.1) →
        (t.escape z).way = some (min 31 (w.1 + 1), n, w.2.2)) ∧
    (∀ z, z < 32 → (s.zoneRec z).inUse = false → t.escape z = { way := none, badAir := false })

/-- A pair qualifies while the vehicle is PRESENT and moving and the miner PRESENT in its zone or a neighbour of it (R135). A vehicle
evaluation and a miner evaluation keep the encounter list within 48 entries and the entries of other pairs as they are: a listed pair that
qualifies has miss count 0 and the vehicle's zone, one that does not has one miss more and leaves the list at the second, and an unlisted
pair that qualifies is listed, with the time of the event, while there is room, and is left out where there is none (R136). A vehicle
evaluation sets the vehicle's crowded flag where it leaves a pair out and clears it otherwise, a miner evaluation sets the flags of the
vehicles whose pairs it leaves out and clears none, and a vehicle that enters LOST or OUT loses its entries and the flag (R137). A miner's
VEHICLE_NEAR condition names the vehicle and zone of the oldest entry naming the miner, and ends with the last (R138). A refill keeps a
reader's list within 8 entries, gives its first four the sent mark and holds standing, unacknowledged conditions of tags last heard by the
reader alone: ended and acknowledged entries and those of departed tags leave it, the others stay and every waiting condition is placed
while there is room, and a condition it holds stands in no other list (R121, R122). A list in the order of priority, age and tag id stays in
it (R120); where a condition waits, the list is full and no entry of it ranks lower; an entry that a condition of higher priority evicts is
the youngest of its priority, and of the conditions of one priority the older, and then the one of the lower tag id, is placed first (R121).
-/
def Obligations.EncounterAndDownlinkLists : Prop :=
  ∀ s : State,
    let distinct : Prop := s.haul.encounters.Pairwise fun e f => ¬(e.vehicle = f.vehicle ∧ e.miner = f.miner)
    let unlisted (l : List Encounter) (v m : Nat) : Prop := ∀ e ∈ l, ¬(e.vehicle = v ∧ e.miner = m)
    let evaluated (judged : Encounter → Bool) (zoneOf : Encounter → Option Nat) (pairs : List (Nat × Nat × Option Nat))
        (list : List Encounter) (left : List (Nat × Nat)) : Prop :=
      (s.haul.encounters.length ≤ 48 → list.length ≤ 48) ∧
      (∀ e, judged e = false → (e ∈ list ↔ e ∈ s.haul.encounters)) ∧
      (∀ e ∈ s.haul.encounters, judged e = true →
        (∀ z, zoneOf e = some z → { e with zone := z, miss := 0 } ∈ list) ∧
        (zoneOf e = none → e.miss = 0 → { e with miss := 1 } ∈ list) ∧
        (zoneOf e = none → 1 ≤ e.miss → distinct → unlisted list e.vehicle e.miner)) ∧
      (∀ p ∈ pairs, ∀ z, p.2.2 = some z → unlisted s.haul.encounters p.1 p.2.1 → list.length < 48 →
        { vehicle := p.1, miner := p.2.1, zone := z, created := s.stamp, miss := 0 } ∈ list) ∧
      (∀ e ∈ list, judged e = true → (e.miss = 0 ∧ zoneOf e = some e.zone) ∨ (e.miss = 1 ∧ zoneOf e = none)) ∧
      ∀ v m, (v, m) ∈ left ↔ ∃ p ∈ pairs, p.1 = v ∧ p.2.1 = m ∧ p.2.2 ≠ none ∧ unlisted list v m
    (∀ (v : Vehicle) (m : Miner) (z : Nat), s.pairZone v m = some z ↔
      v.state = .present ∧ v.moving = true ∧ m.state = .present ∧ v.zone = some z ∧
      ∃ y, m.zone = some y ∧ (y = z ∨ y ∈ (s.zoneRec z).neighbours)) ∧
    (∀ (j : Nat),
      let near := (s.judgeNear j).condition? (.miner j) .vehicleNear
      ((∀ e ∈ s.haul.encounters, e.miner ≠ j) → near = none) ∧
      ∀ before e after v, s.haul.encounters = before ++ e :: after → e.miner = j → (∀ x ∈ before, x.miner ≠ j) →
        s.vehicle? e.vehicle = some v → ∃ d, near = some d ∧ d.code = v.number ∧ d.target = e.zone ∧ d.next = 0xFF) ∧
    (risingFrom 0 s.people.roster = true → ∀ (i : Nat) (v w : Vehicle), s.vehicle? i = some w → w.tag = v.tag →
      let t := s.commitVehicle i (some v)
      let found := s.vehicleEvaluation i v
      evaluated (fun e => decide (e.vehicle = i)) (fun e => (s.miner? e.miner).bind (s.pairZone v))
        (s.people.roster.map fun p => (i, p.1, s.pairZone v p.2)) found.1 found.2 ∧
      ∃ u, t.vehicle? i = some u ∧
        (v.state ≠ .lost → v.state ≠ .out → t.haul.encounters = found.1 ∧ u.crowded = decide (found.2 ≠ [])) ∧
        ((v.state = .lost ∨ v.state = .out) → u.crowded = false ∧ ∀ e ∈ t.haul.encounters, e.vehicle ≠ i)) ∧
    (risingFrom 0 s.haul.vehicles = true → ∀ (i : Nat) (m : Miner), s.miner? i = some m →
      let t := s.minerEncounters i
      let found := s.minerEvaluation i m
      evaluated (fun e => decide (e.miner = i)) (fun e => (s.vehicle? e.vehicle).bind fun v => s.pairZone v m)
        (s.haul.vehicles.map fun p => (p.1, i, s.pairZone p.2 m)) found.1 found.2 ∧
      t.haul.encounters = found.1 ∧
      ∀ j v, s.vehicle? j = some v →
        ∃ u, t.vehicle? j = some u ∧ u.crowded = (v.crowded || decide ((j, i) ∈ found.2))) ∧
    (∀ (pos : Nat) (l : DownList), lookupAt s.people.lists pos = some l → l.entries.length ≤ 8 →
      (s.people.conditions.Pairwise fun c d => ¬(c.ref = d.ref ∧ c.kind = d.kind)) → risingFrom 0 s.people.lists = true →
      let here (r : TagRef) (k : DownKind) : Prop :=
        (s.condition? r k).map (·.acked) = some false ∧ (s.tagOf r).map (·.2) = some (some l.reader)
      let age (created : Clock) : Nat := elapsed s.now created
      let ordered (es : List DownEntry) : Prop := es.Pairwise fun x y =>
        y.kind.code < x.kind.code ∨ (x.kind = y.kind ∧ (age y.created < age x.created ∨ (age x.created = age y.created ∧ x.tag ≤ y.tag)))
      let lists (es : List DownEntry) (r : TagRef) (k : DownKind) : Prop := ∃ x ∈ es, x.ref = r ∧ x.kind = k
      ∃ l', lookupAt (s.refill pos).people.lists pos = some l' ∧ l'.reader = l.reader ∧ l'.entries.length ≤ 8 ∧
        (∀ (k : Nat) (e : DownEntry), l'.entries[k]? = some e → (e.sent = true ↔ k < 4)) ∧
        (∀ e ∈ l'.entries, e.ended = false ∧ here e.ref e.kind) ∧
        (l'.entries.length < 8 →
          (∀ e ∈ l.entries, e.ended = false → here e.ref e.kind → ∃ x ∈ l'.entries, { x with sent := e.sent } = e) ∧
          ∀ c ∈ s.people.conditions, here c.ref c.kind → ∃ e ∈ l'.entries, e.ref = c.ref ∧ e.kind = c.kind) ∧
        (ordered l.entries → ordered l'.entries ∧
          (∀ c ∈ s.people.conditions, here c.ref c.kind → ¬lists l'.entries c.ref c.kind →
            l'.entries.length = 8 ∧ ∀ x ∈ l'.entries, c.kind.code ≤ x.kind.code) ∧
          (∀ e ∈ l.entries, e.ended = false → here e.ref e.kind → ¬lists l'.entries e.ref e.kind →
            ∀ x ∈ l'.entries, x.kind = e.kind → age e.created ≤ age x.created) ∧
          ∀ c ∈ s.people.conditions, here c.ref c.kind → ¬lists l.entries c.ref c.kind → ¬lists l'.entries c.ref c.kind →
            ∀ x ∈ l'.entries, x.kind = c.kind → ¬lists l.entries x.ref x.kind →
              age c.created < age x.created ∨
                (age c.created = age x.created ∧ ∀ t, (s.tagOf c.ref).map (·.1) = some t → x.tag ≤ t)) ∧
        ∀ q k, q ≠ pos → lookupAt (s.refill pos).people.lists q = some k → ∀ e ∈ k.entries, e.ended = false →
          ∀ x ∈ l'.entries, ¬(x.ref = e.ref ∧ x.kind = e.kind))
end

