-- ==== Sys2Proof/Laws/Tables.lean ====
section
/-! SUPPORT. Laws of tables and byte memory: a read after a write, the other places, and the canonical form. -/

namespace Sys2Proof.Machine

variable {α : Type}

/-! ### Tables -/

/-- What an index holds after a store: the new record there, and what it held elsewhere. -/
theorem lookupAt_storeAt (t : Tbl α) (i j : Nat) (x : α) :
    lookupAt (storeAt t i x) j = if i = j then some x else lookupAt t j := by
  induction t with
  | nil => simp [storeAt, lookupAt]
  | cons p t ih =>
    obtain ⟨k, a⟩ := p
    simp only [storeAt]
    split
    · simp [lookupAt]
    · split
      · subst_vars
        by_cases hk : k = j <;> simp [lookupAt, hk]
      · simp only [lookupAt, ih]
        by_cases hk : k = j
        · have : ¬ i = j := by omega
          simp [hk, this]
        · simp [hk]

@[simp] theorem lookupAt_storeAt_same (t : Tbl α) (i : Nat) (x : α) : lookupAt (storeAt t i x) i = some x := by
  simp [lookupAt_storeAt]

theorem lookupAt_storeAt_other (t : Tbl α) {i j : Nat} (x : α) (h : i ≠ j) :
    lookupAt (storeAt t i x) j = lookupAt t j := by
  simp [lookupAt_storeAt, h]

/-- Taking an index out leaves every other index as it was. -/
theorem lookupAt_dropAt_other (t : Tbl α) {i j : Nat} (h : i ≠ j) : lookupAt (dropAt t i) j = lookupAt t j := by
  induction t with
  | nil => rfl
  | cons p t ih =>
    obtain ⟨k, a⟩ := p
    by_cases hk : k = i
    · have : ¬ k = j := by omega
      simp [dropAt, lookupAt, hk, h]
    · by_cases hj : k = j
      · have : ¬ j = i := by omega
        simp [dropAt, lookupAt, hj, this]
      · simp [dropAt, lookupAt, hk, hj, ih]

theorem risingFrom_mono {lo lo' : Nat} (h : lo' ≤ lo) : ∀ t : Tbl α, risingFrom lo t = true → risingFrom lo' t = true
  | [], _ => rfl
  | (k, _) :: t, ht => by
    simp only [risingFrom, Bool.and_eq_true, decide_eq_true_eq] at ht ⊢
    exact ⟨by omega, ht.2⟩

/-- An index below a rising table's bound is not listed. -/
theorem lookupAt_below : ∀ (t : Tbl α) {lo i : Nat}, risingFrom lo t = true → i < lo → lookupAt t i = none
  | [], _, _, _, _ => rfl
  | (k, _) :: t, lo, i, ht, hi => by
    simp only [risingFrom, Bool.and_eq_true, decide_eq_true_eq] at ht
    have : ¬ k = i := by omega
    simp only [lookupAt, this, if_false]
    exact lookupAt_below t ht.2 (by omega)

/-- A rising table holds nothing at an index taken out. -/
theorem lookupAt_dropAt_same : ∀ (t : Tbl α) {lo : Nat} (i : Nat), risingFrom lo t = true → lookupAt (dropAt t i) i = none
  | [], _, _, _ => rfl
  | (k, a) :: t, lo, i, ht => by
    simp only [risingFrom, Bool.and_eq_true, decide_eq_true_eq] at ht
    by_cases hk : k = i
    · subst hk
      simpa [dropAt] using lookupAt_below t ht.2 (Nat.lt_succ_self _)
    · simp only [dropAt, hk, if_false, lookupAt]
      exact lookupAt_dropAt_same t i ht.2

theorem risingFrom_storeAt : ∀ (t : Tbl α) {lo : Nat} (i : Nat) (x : α), lo ≤ i → risingFrom lo t = true →
    risingFrom lo (storeAt t i x) = true
  | [], _, _, _, h, _ => by simp [storeAt, risingFrom, h]
  | (k, a) :: t, lo, i, x, h, ht => by
    simp only [risingFrom, Bool.and_eq_true, decide_eq_true_eq] at ht
    simp only [storeAt]
    split
    · simp only [risingFrom, Bool.and_eq_true, decide_eq_true_eq]
      exact ⟨h, by omega, ht.2⟩
    · split
      · subst_vars
        simp only [risingFrom, Bool.and_eq_true, decide_eq_true_eq]
        exact ⟨h, ht.2⟩
      · simp only [risingFrom, Bool.and_eq_true, decide_eq_true_eq]
        exact ⟨ht.1, risingFrom_storeAt t i x (by omega) ht.2⟩

theorem risingFrom_dropAt : ∀ (t : Tbl α) {lo : Nat} (i : Nat), risingFrom lo t = true → risingFrom lo (dropAt t i) = true
  | [], _, _, _ => rfl
  | (k, a) :: t, lo, i, ht => by
    simp only [risingFrom, Bool.and_eq_true, decide_eq_true_eq] at ht
    simp only [dropAt]
    split
    · exact risingFrom_mono (by omega) t ht.2
    · simp only [risingFrom, Bool.and_eq_true, decide_eq_true_eq]
      exact ⟨ht.1, risingFrom_dropAt t i ht.2⟩

theorem mem_storeAt {t : Tbl α} {i : Nat} {x : α} {p : Nat × α} (h : p ∈ storeAt t i x) : p = (i, x) ∨ p ∈ t := by
  induction t with
  | nil => simpa [storeAt] using h
  | cons q t ih =>
    obtain ⟨k, a⟩ := q
    simp only [storeAt] at h
    split at h
    · simpa using h
    · split at h
      · rcases List.mem_cons.mp h with h | h <;> simp [h]
      · rcases List.mem_cons.mp h with h | h
        · simp [h]
        · rcases ih h with h | h <;> simp [h]

theorem mem_of_mem_dropAt {t : Tbl α} {i : Nat} {p : Nat × α} (h : p ∈ dropAt t i) : p ∈ t := by
  induction t with
  | nil => simp [dropAt] at h
  | cons q t ih =>
    obtain ⟨k, a⟩ := q
    simp only [dropAt] at h
    split at h
    · exact List.mem_cons_of_mem _ h
    · rcases List.mem_cons.mp h with h | h
      · simp [h]
      · exact List.mem_cons_of_mem _ (ih h)

/-! ### Memory -/

/-- A byte of memory after a write elsewhere. -/
theorem readMem_writeMem_other (m : Memory) {a c : Nat} (b : Byte) (h : a ≠ c) :
    readMem (writeMem m a b) c = readMem m c := by
  unfold readMem writeMem
  split
  · rw [lookupAt_dropAt_other _ h]
  · rw [lookupAt_storeAt_other _ _ h]

theorem Memory.wf_iff (m : Memory) :
    Memory.wf m = true ↔ risingFrom 0 m = true ∧ ∀ c ∈ m, c.2 ≠ unlistedByte := by
  simp [Memory.wf, Bool.and_eq_true]

/-- In canonical memory a byte reads as it was written. -/
theorem readMem_writeMem_same {m : Memory} (hm : Memory.wf m = true) (a : Nat) (b : Byte) :
    readMem (writeMem m a b) a = b := by
  unfold readMem writeMem
  split
  · rw [lookupAt_dropAt_same m a ((Memory.wf_iff m).mp hm).1]
    simp [*]
  · simp

/-- A write keeps the canonical form. -/
theorem Memory.wf_writeMem {m : Memory} (hm : Memory.wf m = true) (a : Nat) (b : Byte) :
    Memory.wf (writeMem m a b) = true := by
  rw [Memory.wf_iff] at hm ⊢
  unfold writeMem
  split
  · exact ⟨risingFrom_dropAt m a hm.1, fun c hc => hm.2 c (mem_of_mem_dropAt hc)⟩
  · next hb =>
    refine ⟨risingFrom_storeAt m a b (Nat.zero_le a) hm.1, fun c hc => ?_⟩
    rcases mem_storeAt hc with rfl | hc
    · exact hb
    · exact hm.2 c hc

/-- Writing bytes keeps the canonical form. -/
theorem Memory.wf_writeBytes : ∀ {m : Memory} (a : Nat) (bs : List Byte), Memory.wf m = true →
    Memory.wf (writeBytes m a bs) = true
  | _, _, [], hm => hm
  | _, a, b :: bs, hm => Memory.wf_writeBytes (a + 1) bs (Memory.wf_writeMem hm a b)

/-- A byte outside the bytes written reads as before. -/
theorem readMem_writeBytes_other : ∀ (m : Memory) (a c : Nat) (bs : List Byte), c < a ∨ a + bs.length ≤ c →
    readMem (writeBytes m a bs) c = readMem m c
  | _, _, _, [], _ => rfl
  | m, a, c, b :: bs, h => by
    simp only [List.length_cons] at h
    rw [writeBytes, readMem_writeBytes_other _ (a + 1) c bs (by omega), readMem_writeMem_other m b (by omega)]

/-- A byte among those written reads as written. -/
theorem readMem_writeBytes_same : ∀ {m : Memory} (a k : Nat) (bs : List Byte), Memory.wf m = true → (h : k < bs.length) →
    readMem (writeBytes m a bs) (a + k) = bs[k]
  | _, _, _, [], _, h => by simp at h
  | m, a, 0, b :: bs, hm, _ => by
    have h0 : a + 0 = a := rfl
    rw [writeBytes, h0, readMem_writeBytes_other _ _ _ _ (by omega), readMem_writeMem_same hm]
    rfl
  | m, a, k + 1, b :: bs, hm, h => by
    have := readMem_writeBytes_same (a + 1) k bs (Memory.wf_writeMem hm a b) (by simpa using h)
    rw [writeBytes]
    simpa [Nat.add_assoc, Nat.add_comm 1 k] using this

end Sys2Proof.Machine
end

