-- ==== Sys2Proof/Laws/News.lean ====
section
/-! SUPPORT. What appends do to the event log while there is room, what the gathering of record updates does to the version counts,
and what a judgement of sounder choices does to each zone's choice. -/

namespace Sys2Proof.Machine

open Sys2Proof.Config

/-! ### The event log (R21 to R23) -/

/-- An append with room: the entry at the written count modulo 256, and the count one higher (R21). -/
theorem appendNow_room {s : State} (h : s.backlog < 256) (n : News) :
    (s.appendNow n).port.log = storeAt s.port.log (s.port.written.toNat % 256) (s.logEntry n) ∧
    (s.appendNow n).port.written = s.port.written + 1#32 ∧ (s.appendNow n).port.taken = s.port.taken ∧
    (s.appendNow n).supply = s.supply ∧ (s.appendNow n).work = s.work ∧ (s.appendNow n).port.versions = s.port.versions := by
  have e : ¬256 ≤ s.backlog := by omega
  unfold State.appendNow
  rw [if_neg e]
  exact ⟨rfl, rfl, rfl, rfl, rfl, rfl⟩

/-- An append changes neither the version counts nor what waits in the step. -/
theorem appendNow_kept (s : State) (n : News) :
    (s.appendNow n).port.versions = s.port.versions ∧ (s.appendNow n).work = s.work := by
  unfold State.appendNow
  split
  · split <;> exact ⟨rfl, rfl⟩
  · exact ⟨rfl, rfl⟩

theorem foldl_appendNow_kept (l : List News) (s : State) :
    (l.foldl (fun s n => s.appendNow n) s).port.versions = s.port.versions ∧
    (l.foldl (fun s n => s.appendNow n) s).work = s.work := by
  induction l generalizing s with
  | nil => exact ⟨rfl, rfl⟩
  | cons n l ih => simp only [List.foldl_cons, ih, appendNow_kept, and_self]

/-- The backlog after an append with room. -/
theorem backlog_appendNow {s : State} (h : s.backlog < 256) (n : News) : (s.appendNow n).backlog = s.backlog + 1 := by
  obtain ⟨-, hw, ht, -⟩ := appendNow_room h n
  unfold State.backlog at *
  rw [hw, ht]
  bv_omega

/-- Appends of several events with room for all: the written count rises by their number, each stands at its own place with the mine
clock, and every other place of the ring stands (R21). -/
theorem foldl_appendNow_room (l : List News) (s : State) (h : s.backlog + l.length ≤ 256) :
    let t := l.foldl (fun s n => s.appendNow n) s
    t.port.written = s.port.written + BitVec.ofNat 32 l.length ∧
    (∀ j (x : News), l[j]? = some x →
      lookupAt t.port.log ((s.port.written.toNat + j) % 256) =
        some { clock := s.supply.mineClock, kind := x.kind, cls := x.cls, index := x.index, a := BitVec.ofNat 16 x.a,
               b := BitVec.ofNat 16 x.b, seq := BitVec.ofNat 16 (s.port.written.toNat + j) }) ∧
    (∀ k, k < 256 → (∀ j, j < l.length → k ≠ (s.port.written.toNat + j) % 256) → lookupAt t.port.log k = lookupAt s.port.log k) := by
  induction l generalizing s with
  | nil => simp
  | cons n l ih =>
    simp only [List.length_cons] at h
    have room : s.backlog < 256 := by omega
    obtain ⟨hl, hw, -, hs, -⟩ := appendNow_room room n
    have hb := backlog_appendNow room n
    obtain ⟨iw, ie, io⟩ := ih (s.appendNow n) (by omega)
    have wrap (j : Nat) : ((s.appendNow n).port.written.toNat + j) % 256 = (s.port.written.toNat + (j + 1)) % 256 := by
      rw [hw]; simp only [BitVec.toNat_add, BitVec.toNat_ofNat]; omega
    have seq (j : Nat) : BitVec.ofNat 16 ((s.appendNow n).port.written.toNat + j) = BitVec.ofNat 16 (s.port.written.toNat + (j + 1)) := by
      apply BitVec.eq_of_toNat_eq
      rw [hw]; simp only [BitVec.toNat_ofNat, BitVec.toNat_add]; omega
    dsimp only [List.foldl_cons] at *
    refine ⟨?_, ?_, ?_⟩
    · rw [iw, hw, List.length_cons]; bv_omega
    · intro j x hx
      cases j with
      | zero =>
        obtain rfl : n = x := by simpa using hx
        rw [Nat.add_zero, io _ (Nat.mod_lt _ (by omega)) (by intro j hj; rw [wrap]; omega), hl, lookupAt_storeAt_same]
        rfl
      | succ j =>
        have := ie j x (by simpa using hx)
        rw [wrap, seq, hs] at this
        exact this
    · intro k hk hj
      rw [io k hk (by intro j hj'; rw [wrap]; exact hj (j + 1) (by simp; omega)), hl]
      exact lookupAt_storeAt_other _ _ (by have := hj 0 (by simp); simpa using this.symm)

/-! ### Record updates (R4) -/

/-- One record update raises the record's version count by two, and no other. -/
theorem version_bumpNow (s : State) (a b : Nat) :
    (s.bumpNow a).version b = if a = b then s.version b + 2#16 else s.version b := by
  show (lookupAt (storeAt s.port.versions a _) b).getD 0 = _
  rw [lookupAt_storeAt]
  split
  · next h => subst h; rfl
  · rfl

/-- Several record updates raise each version count by two for each update of the record. -/
theorem version_foldl_bumpNow (l : List Nat) (s : State) (b : Nat) :
    (l.foldl (fun s a => s.bumpNow a) s).version b = s.version b + 2#16 * BitVec.ofNat 16 (l.count b) := by
  induction l generalizing s with
  | nil => simp
  | cons a l ih =>
    rw [List.foldl_cons, ih, version_bumpNow, List.count_cons]
    by_cases h : a = b
    · simp only [h, if_true, beq_self_eq_true]; bv_omega
    · simp [h]

/-! ### Sounder choices (R168) -/

theorem insertNat_rising (l : List Nat) (x : Nat) (h : l.Pairwise (· < ·)) : (insertNat l x).Pairwise (· < ·) := by
  induction l with
  | nil => simp [insertNat]
  | cons y l ih =>
    obtain ⟨hy, hl⟩ := List.pairwise_cons.mp h
    simp only [insertNat]
    split
    · next hx =>
      refine List.pairwise_cons.mpr ⟨fun a ha => ?_, h⟩
      rcases List.mem_cons.mp ha with rfl | ha
      · exact hx
      · exact Nat.lt_trans hx (hy a ha)
    · split
      · exact h
      · refine List.pairwise_cons.mpr ⟨fun a ha => ?_, ih hl⟩
        have : a = x ∨ a ∈ l := by
          clear ih h hy hl
          induction l with
          | nil => simpa [insertNat] using ha
          | cons b l ih => simp only [insertNat] at ha; grind
        rcases this with rfl | ha
        · omega
        · exact hy a ha

theorem mem_foldl_insertNat (l m : List Nat) (y : Nat) : y ∈ l.foldl insertNat m ↔ y ∈ m ∨ y ∈ l := by
  have one (m : List Nat) (x : Nat) : y ∈ insertNat m x ↔ y = x ∨ y ∈ m := by
    induction m with
    | nil => simp [insertNat]
    | cons a m ih => simp only [insertNat]; grind
  induction l generalizing m with
  | nil => simp
  | cons x l ih =>
    refine (ih (insertNat m x)).trans ?_
    rw [one, List.mem_cons]
    grind

theorem foldl_insertNat_rising (l m : List Nat) (h : m.Pairwise (· < ·)) : (l.foldl insertNat m).Pairwise (· < ·) := by
  induction l generalizing m with
  | nil => exact h
  | cons x l ih => exact ih _ (insertNat_rising m x h)

/-- A judgement of one zone's choice. -/
theorem choice_setChoice (s : State) (z y : Nat) (b : Bool) :
    (s.setChoice z b).choice y = if z = y then ⟨s.zonePattern y, (s.choice y).seq ^^ b⟩ else s.choice y := by
  show (lookupAt (storeAt s.alarm.choices z _) y).getD _ = _
  rw [lookupAt_storeAt]
  split
  · next h => subst h; rfl
  · rfl

/-- A judgement of the choices of several zones, each named once. -/
theorem choice_forEach_setChoice (l : List Nat) (h : l.Nodup) (s : State) (b : Bool) (y : Nat) :
    (forEach l (fun z s => s.setChoice z b) s).choice y =
      if y ∈ l then ⟨s.zonePattern y, (s.choice y).seq ^^ b⟩ else s.choice y := by
  induction l generalizing s with
  | nil => simp [forEach]
  | cons z l ih =>
    obtain ⟨hz, hl⟩ := List.nodup_cons.mp h
    have e : forEach (z :: l) (fun z s => s.setChoice z b) s = forEach l (fun z s => s.setChoice z b) (s.setChoice z b) := rfl
    have p : (s.setChoice z b).zonePattern y = s.zonePattern y := rfl
    rw [e, ih hl, choice_setChoice, p]
    by_cases hy : z = y
    · subst hy; simp [hz]
    · have : ¬y = z := fun h => hy h.symm
      simp [hy, this]

end Sys2Proof.Machine
end

