-- ==== Sys2Proof/Laws/State.lean ====
section
/-! SUPPORT. What each plain update of the state leaves as it was, field by field. -/

namespace Sys2Proof.Machine

@[simp] theorem State.bump_port (s : State) (a : Nat) : (s.bump a).port = s.port := rfl
@[simp] theorem State.bump_orders (s : State) (a : Nat) : (s.bump a).orders = s.orders := rfl
@[simp] theorem State.bump_loop (s : State) (a : Nat) : (s.bump a).loop = s.loop := rfl
@[simp] theorem State.bump_air (s : State) (a : Nat) : (s.bump a).air = s.air := rfl
@[simp] theorem State.bump_zone (s : State) (a : Nat) : (s.bump a).zone = s.zone := rfl
@[simp] theorem State.bump_tests (s : State) (a : Nat) : (s.bump a).tests = s.tests := rfl
@[simp] theorem State.bump_people (s : State) (a : Nat) : (s.bump a).people = s.people := rfl
@[simp] theorem State.bump_haul (s : State) (a : Nat) : (s.bump a).haul = s.haul := rfl
@[simp] theorem State.bump_route (s : State) (a : Nat) : (s.bump a).route = s.route := rfl
@[simp] theorem State.bump_evac (s : State) (a : Nat) : (s.bump a).evac = s.evac := rfl
@[simp] theorem State.bump_alarm (s : State) (a : Nat) : (s.bump a).alarm = s.alarm := rfl
@[simp] theorem State.bump_supply (s : State) (a : Nat) : (s.bump a).supply = s.supply := rfl
@[simp] theorem State.bump_pending (s : State) (a : Nat) : (s.bump a).pending = s.pending := rfl

@[simp] theorem State.bumpNow_orders (s : State) (a : Nat) : (s.bumpNow a).orders = s.orders := rfl
@[simp] theorem State.bumpNow_loop (s : State) (a : Nat) : (s.bumpNow a).loop = s.loop := rfl
@[simp] theorem State.bumpNow_air (s : State) (a : Nat) : (s.bumpNow a).air = s.air := rfl
@[simp] theorem State.bumpNow_zone (s : State) (a : Nat) : (s.bumpNow a).zone = s.zone := rfl
@[simp] theorem State.bumpNow_tests (s : State) (a : Nat) : (s.bumpNow a).tests = s.tests := rfl
@[simp] theorem State.bumpNow_people (s : State) (a : Nat) : (s.bumpNow a).people = s.people := rfl
@[simp] theorem State.bumpNow_haul (s : State) (a : Nat) : (s.bumpNow a).haul = s.haul := rfl
@[simp] theorem State.bumpNow_route (s : State) (a : Nat) : (s.bumpNow a).route = s.route := rfl
@[simp] theorem State.bumpNow_evac (s : State) (a : Nat) : (s.bumpNow a).evac = s.evac := rfl
@[simp] theorem State.bumpNow_alarm (s : State) (a : Nat) : (s.bumpNow a).alarm = s.alarm := rfl
@[simp] theorem State.bumpNow_supply (s : State) (a : Nat) : (s.bumpNow a).supply = s.supply := rfl
@[simp] theorem State.bumpNow_pending (s : State) (a : Nat) : (s.bumpNow a).pending = s.pending := rfl
@[simp] theorem State.bumpNow_work (s : State) (a : Nat) : (s.bumpNow a).work = s.work := rfl

@[simp] theorem State.append_port (s : State) (k c i a b : Nat) : (s.append k c i a b).port = s.port := rfl
@[simp] theorem State.append_orders (s : State) (k c i a b : Nat) : (s.append k c i a b).orders = s.orders := rfl
@[simp] theorem State.append_loop (s : State) (k c i a b : Nat) : (s.append k c i a b).loop = s.loop := rfl
@[simp] theorem State.append_air (s : State) (k c i a b : Nat) : (s.append k c i a b).air = s.air := rfl
@[simp] theorem State.append_zone (s : State) (k c i a b : Nat) : (s.append k c i a b).zone = s.zone := rfl
@[simp] theorem State.append_tests (s : State) (k c i a b : Nat) : (s.append k c i a b).tests = s.tests := rfl
@[simp] theorem State.append_people (s : State) (k c i a b : Nat) : (s.append k c i a b).people = s.people := rfl
@[simp] theorem State.append_haul (s : State) (k c i a b : Nat) : (s.append k c i a b).haul = s.haul := rfl
@[simp] theorem State.append_route (s : State) (k c i a b : Nat) : (s.append k c i a b).route = s.route := rfl
@[simp] theorem State.append_evac (s : State) (k c i a b : Nat) : (s.append k c i a b).evac = s.evac := rfl
@[simp] theorem State.append_alarm (s : State) (k c i a b : Nat) : (s.append k c i a b).alarm = s.alarm := rfl
@[simp] theorem State.append_supply (s : State) (k c i a b : Nat) : (s.append k c i a b).supply = s.supply := rfl
@[simp] theorem State.append_pending (s : State) (k c i a b : Nat) : (s.append k c i a b).pending = s.pending := rfl

@[simp] theorem State.bumpSummary_port (s : State) : (s.bumpSummary).port = s.port := rfl
@[simp] theorem State.bumpSummary_orders (s : State) : (s.bumpSummary).orders = s.orders := rfl
@[simp] theorem State.bumpSummary_loop (s : State) : (s.bumpSummary).loop = s.loop := rfl
@[simp] theorem State.bumpSummary_air (s : State) : (s.bumpSummary).air = s.air := rfl
@[simp] theorem State.bumpSummary_zone (s : State) : (s.bumpSummary).zone = s.zone := rfl
@[simp] theorem State.bumpSummary_tests (s : State) : (s.bumpSummary).tests = s.tests := rfl
@[simp] theorem State.bumpSummary_people (s : State) : (s.bumpSummary).people = s.people := rfl
@[simp] theorem State.bumpSummary_haul (s : State) : (s.bumpSummary).haul = s.haul := rfl
@[simp] theorem State.bumpSummary_route (s : State) : (s.bumpSummary).route = s.route := rfl
@[simp] theorem State.bumpSummary_evac (s : State) : (s.bumpSummary).evac = s.evac := rfl
@[simp] theorem State.bumpSummary_alarm (s : State) : (s.bumpSummary).alarm = s.alarm := rfl
@[simp] theorem State.bumpSummary_supply (s : State) : (s.bumpSummary).supply = s.supply := rfl
@[simp] theorem State.bumpSummary_pending (s : State) : (s.bumpSummary).pending = s.pending := rfl

/-! ### A guest's gathered record update -/

@[simp] theorem State.bumpGuest_port (s : State) (g : Guest) (a : Nat) : (s.bumpGuest g a).port = s.port := by
  unfold State.bumpGuest; split <;> rfl
@[simp] theorem State.bumpGuest_orders (s : State) (g : Guest) (a : Nat) : (s.bumpGuest g a).orders = s.orders := by
  unfold State.bumpGuest; split <;> rfl
@[simp] theorem State.bumpGuest_loop (s : State) (g : Guest) (a : Nat) : (s.bumpGuest g a).loop = s.loop := by
  unfold State.bumpGuest; split <;> rfl
@[simp] theorem State.bumpGuest_air (s : State) (g : Guest) (a : Nat) : (s.bumpGuest g a).air = s.air := by
  unfold State.bumpGuest; split <;> rfl
@[simp] theorem State.bumpGuest_zone (s : State) (g : Guest) (a : Nat) : (s.bumpGuest g a).zone = s.zone := by
  unfold State.bumpGuest; split <;> rfl
@[simp] theorem State.bumpGuest_tests (s : State) (g : Guest) (a : Nat) : (s.bumpGuest g a).tests = s.tests := by
  unfold State.bumpGuest; split <;> rfl
@[simp] theorem State.bumpGuest_people (s : State) (g : Guest) (a : Nat) : (s.bumpGuest g a).people = s.people := by
  unfold State.bumpGuest; split <;> rfl
@[simp] theorem State.bumpGuest_haul (s : State) (g : Guest) (a : Nat) : (s.bumpGuest g a).haul = s.haul := by
  unfold State.bumpGuest; split <;> rfl
@[simp] theorem State.bumpGuest_route (s : State) (g : Guest) (a : Nat) : (s.bumpGuest g a).route = s.route := by
  unfold State.bumpGuest; split <;> rfl
@[simp] theorem State.bumpGuest_evac (s : State) (g : Guest) (a : Nat) : (s.bumpGuest g a).evac = s.evac := by
  unfold State.bumpGuest; split <;> rfl
@[simp] theorem State.bumpGuest_alarm (s : State) (g : Guest) (a : Nat) : (s.bumpGuest g a).alarm = s.alarm := by
  unfold State.bumpGuest; split <;> rfl
@[simp] theorem State.bumpGuest_supply (s : State) (g : Guest) (a : Nat) : (s.bumpGuest g a).supply = s.supply := by
  unfold State.bumpGuest; split <;> rfl
@[simp] theorem State.bumpGuest_pending (s : State) (g : Guest) (a : Nat) : (s.bumpGuest g a).pending = s.pending := by
  unfold State.bumpGuest; split <;> rfl

@[simp] theorem State.raise_orders (s : State) (c : Cause) : (s.raise c).orders = s.orders := rfl
@[simp] theorem State.raise_loop (s : State) (c : Cause) : (s.raise c).loop = s.loop := rfl
@[simp] theorem State.raise_air (s : State) (c : Cause) : (s.raise c).air = s.air := rfl
@[simp] theorem State.raise_zone (s : State) (c : Cause) : (s.raise c).zone = s.zone := rfl
@[simp] theorem State.raise_tests (s : State) (c : Cause) : (s.raise c).tests = s.tests := rfl
@[simp] theorem State.raise_people (s : State) (c : Cause) : (s.raise c).people = s.people := rfl
@[simp] theorem State.raise_haul (s : State) (c : Cause) : (s.raise c).haul = s.haul := rfl
@[simp] theorem State.raise_route (s : State) (c : Cause) : (s.raise c).route = s.route := rfl
@[simp] theorem State.raise_evac (s : State) (c : Cause) : (s.raise c).evac = s.evac := rfl
@[simp] theorem State.raise_alarm (s : State) (c : Cause) : (s.raise c).alarm = s.alarm := rfl
@[simp] theorem State.raise_supply (s : State) (c : Cause) : (s.raise c).supply = s.supply := rfl
@[simp] theorem State.raise_work (s : State) (c : Cause) : (s.raise c).work = s.work := rfl
@[simp] theorem State.raise_pending (s : State) (c : Cause) : (s.raise c).pending = s.pending := rfl

@[simp] theorem State.putInner_port (s : State) (a : Nat) (h : HeadInner) : (s.putInner a h).port = s.port := rfl
@[simp] theorem State.putInner_orders (s : State) (a : Nat) (h : HeadInner) : (s.putInner a h).orders = s.orders := rfl
@[simp] theorem State.putInner_air (s : State) (a : Nat) (h : HeadInner) : (s.putInner a h).air = s.air := rfl
@[simp] theorem State.putInner_zone (s : State) (a : Nat) (h : HeadInner) : (s.putInner a h).zone = s.zone := rfl
@[simp] theorem State.putInner_tests (s : State) (a : Nat) (h : HeadInner) : (s.putInner a h).tests = s.tests := rfl
@[simp] theorem State.putInner_people (s : State) (a : Nat) (h : HeadInner) : (s.putInner a h).people = s.people := rfl
@[simp] theorem State.putInner_haul (s : State) (a : Nat) (h : HeadInner) : (s.putInner a h).haul = s.haul := rfl
@[simp] theorem State.putInner_route (s : State) (a : Nat) (h : HeadInner) : (s.putInner a h).route = s.route := rfl
@[simp] theorem State.putInner_evac (s : State) (a : Nat) (h : HeadInner) : (s.putInner a h).evac = s.evac := rfl
@[simp] theorem State.putInner_alarm (s : State) (a : Nat) (h : HeadInner) : (s.putInner a h).alarm = s.alarm := rfl
@[simp] theorem State.putInner_supply (s : State) (a : Nat) (h : HeadInner) : (s.putInner a h).supply = s.supply := rfl
@[simp] theorem State.putInner_work (s : State) (a : Nat) (h : HeadInner) : (s.putInner a h).work = s.work := rfl
@[simp] theorem State.putInner_pending (s : State) (a : Nat) (h : HeadInner) : (s.putInner a h).pending = s.pending := rfl

@[simp] theorem State.putWindow_port (s : State) (i : Nat) (w : List Nat) : (s.putWindow i w).port = s.port := rfl
@[simp] theorem State.putWindow_orders (s : State) (i : Nat) (w : List Nat) : (s.putWindow i w).orders = s.orders := rfl
@[simp] theorem State.putWindow_loop (s : State) (i : Nat) (w : List Nat) : (s.putWindow i w).loop = s.loop := rfl
@[simp] theorem State.putWindow_zone (s : State) (i : Nat) (w : List Nat) : (s.putWindow i w).zone = s.zone := rfl
@[simp] theorem State.putWindow_tests (s : State) (i : Nat) (w : List Nat) : (s.putWindow i w).tests = s.tests := rfl
@[simp] theorem State.putWindow_people (s : State) (i : Nat) (w : List Nat) : (s.putWindow i w).people = s.people := rfl
@[simp] theorem State.putWindow_haul (s : State) (i : Nat) (w : List Nat) : (s.putWindow i w).haul = s.haul := rfl
@[simp] theorem State.putWindow_route (s : State) (i : Nat) (w : List Nat) : (s.putWindow i w).route = s.route := rfl
@[simp] theorem State.putWindow_evac (s : State) (i : Nat) (w : List Nat) : (s.putWindow i w).evac = s.evac := rfl
@[simp] theorem State.putWindow_alarm (s : State) (i : Nat) (w : List Nat) : (s.putWindow i w).alarm = s.alarm := rfl
@[simp] theorem State.putWindow_supply (s : State) (i : Nat) (w : List Nat) : (s.putWindow i w).supply = s.supply := rfl
@[simp] theorem State.putWindow_work (s : State) (i : Nat) (w : List Nat) : (s.putWindow i w).work = s.work := rfl
@[simp] theorem State.putWindow_pending (s : State) (i : Nat) (w : List Nat) : (s.putWindow i w).pending = s.pending := rfl

@[simp] theorem State.setLatch_port (s : State) (z : Nat) (b : Bool) : (s.setLatch z b).port = s.port := rfl
@[simp] theorem State.setLatch_orders (s : State) (z : Nat) (b : Bool) : (s.setLatch z b).orders = s.orders := rfl
@[simp] theorem State.setLatch_loop (s : State) (z : Nat) (b : Bool) : (s.setLatch z b).loop = s.loop := rfl
@[simp] theorem State.setLatch_air (s : State) (z : Nat) (b : Bool) : (s.setLatch z b).air = s.air := rfl
@[simp] theorem State.setLatch_zone (s : State) (z : Nat) (b : Bool) : (s.setLatch z b).zone = s.zone := rfl
@[simp] theorem State.setLatch_tests (s : State) (z : Nat) (b : Bool) : (s.setLatch z b).tests = s.tests := rfl
@[simp] theorem State.setLatch_people (s : State) (z : Nat) (b : Bool) : (s.setLatch z b).people = s.people := rfl
@[simp] theorem State.setLatch_haul (s : State) (z : Nat) (b : Bool) : (s.setLatch z b).haul = s.haul := rfl
@[simp] theorem State.setLatch_route (s : State) (z : Nat) (b : Bool) : (s.setLatch z b).route = s.route := rfl
@[simp] theorem State.setLatch_evac (s : State) (z : Nat) (b : Bool) : (s.setLatch z b).evac = s.evac := rfl
@[simp] theorem State.setLatch_alarm (s : State) (z : Nat) (b : Bool) : (s.setLatch z b).alarm = s.alarm := rfl
@[simp] theorem State.setLatch_work (s : State) (z : Nat) (b : Bool) : (s.setLatch z b).work = s.work := rfl
@[simp] theorem State.setLatch_pending (s : State) (z : Nat) (b : Bool) : (s.setLatch z b).pending = s.pending := rfl

@[simp] theorem State.askRecompute_port (s : State) : (s.askRecompute).port = s.port := rfl
@[simp] theorem State.askRecompute_orders (s : State) : (s.askRecompute).orders = s.orders := rfl
@[simp] theorem State.askRecompute_loop (s : State) : (s.askRecompute).loop = s.loop := rfl
@[simp] theorem State.askRecompute_air (s : State) : (s.askRecompute).air = s.air := rfl
@[simp] theorem State.askRecompute_zone (s : State) : (s.askRecompute).zone = s.zone := rfl
@[simp] theorem State.askRecompute_tests (s : State) : (s.askRecompute).tests = s.tests := rfl
@[simp] theorem State.askRecompute_people (s : State) : (s.askRecompute).people = s.people := rfl
@[simp] theorem State.askRecompute_haul (s : State) : (s.askRecompute).haul = s.haul := rfl
@[simp] theorem State.askRecompute_route (s : State) : (s.askRecompute).route = s.route := rfl
@[simp] theorem State.askRecompute_evac (s : State) : (s.askRecompute).evac = s.evac := rfl
@[simp] theorem State.askRecompute_alarm (s : State) : (s.askRecompute).alarm = s.alarm := rfl
@[simp] theorem State.askRecompute_supply (s : State) : (s.askRecompute).supply = s.supply := rfl
@[simp] theorem State.askRecompute_pending (s : State) : (s.askRecompute).pending = s.pending := rfl

@[simp] theorem State.handEvac_port (s : State) (e : EvacTask) : (s.handEvac e).port = s.port := rfl
@[simp] theorem State.handEvac_orders (s : State) (e : EvacTask) : (s.handEvac e).orders = s.orders := rfl
@[simp] theorem State.handEvac_loop (s : State) (e : EvacTask) : (s.handEvac e).loop = s.loop := rfl
@[simp] theorem State.handEvac_air (s : State) (e : EvacTask) : (s.handEvac e).air = s.air := rfl
@[simp] theorem State.handEvac_zone (s : State) (e : EvacTask) : (s.handEvac e).zone = s.zone := rfl
@[simp] theorem State.handEvac_tests (s : State) (e : EvacTask) : (s.handEvac e).tests = s.tests := rfl
@[simp] theorem State.handEvac_people (s : State) (e : EvacTask) : (s.handEvac e).people = s.people := rfl
@[simp] theorem State.handEvac_haul (s : State) (e : EvacTask) : (s.handEvac e).haul = s.haul := rfl
@[simp] theorem State.handEvac_route (s : State) (e : EvacTask) : (s.handEvac e).route = s.route := rfl
@[simp] theorem State.handEvac_evac (s : State) (e : EvacTask) : (s.handEvac e).evac = s.evac := rfl
@[simp] theorem State.handEvac_alarm (s : State) (e : EvacTask) : (s.handEvac e).alarm = s.alarm := rfl
@[simp] theorem State.handEvac_supply (s : State) (e : EvacTask) : (s.handEvac e).supply = s.supply := rfl
@[simp] theorem State.handEvac_pending (s : State) (e : EvacTask) : (s.handEvac e).pending = s.pending := rfl

@[simp] theorem State.handMeet_port (s : State) (i : Nat) (gone : Bool) : (s.handMeet i gone).port = s.port := rfl
@[simp] theorem State.handMeet_orders (s : State) (i : Nat) (gone : Bool) : (s.handMeet i gone).orders = s.orders := rfl
@[simp] theorem State.handMeet_loop (s : State) (i : Nat) (gone : Bool) : (s.handMeet i gone).loop = s.loop := rfl
@[simp] theorem State.handMeet_air (s : State) (i : Nat) (gone : Bool) : (s.handMeet i gone).air = s.air := rfl
@[simp] theorem State.handMeet_zone (s : State) (i : Nat) (gone : Bool) : (s.handMeet i gone).zone = s.zone := rfl
@[simp] theorem State.handMeet_tests (s : State) (i : Nat) (gone : Bool) : (s.handMeet i gone).tests = s.tests := rfl
@[simp] theorem State.handMeet_people (s : State) (i : Nat) (gone : Bool) : (s.handMeet i gone).people = s.people := rfl
@[simp] theorem State.handMeet_haul (s : State) (i : Nat) (gone : Bool) : (s.handMeet i gone).haul = s.haul := rfl
@[simp] theorem State.handMeet_route (s : State) (i : Nat) (gone : Bool) : (s.handMeet i gone).route = s.route := rfl
@[simp] theorem State.handMeet_evac (s : State) (i : Nat) (gone : Bool) : (s.handMeet i gone).evac = s.evac := rfl
@[simp] theorem State.handMeet_alarm (s : State) (i : Nat) (gone : Bool) : (s.handMeet i gone).alarm = s.alarm := rfl
@[simp] theorem State.handMeet_supply (s : State) (i : Nat) (gone : Bool) : (s.handMeet i gone).supply = s.supply := rfl
@[simp] theorem State.handMeet_pending (s : State) (i : Nat) (gone : Bool) : (s.handMeet i gone).pending = s.pending := rfl

@[simp] theorem State.writeSlot_orders (s : State) (n off : Nat) (bs : List Byte) : (s.writeSlot n off bs).orders = s.orders := rfl
@[simp] theorem State.writeSlot_loop (s : State) (n off : Nat) (bs : List Byte) : (s.writeSlot n off bs).loop = s.loop := rfl
@[simp] theorem State.writeSlot_air (s : State) (n off : Nat) (bs : List Byte) : (s.writeSlot n off bs).air = s.air := rfl
@[simp] theorem State.writeSlot_zone (s : State) (n off : Nat) (bs : List Byte) : (s.writeSlot n off bs).zone = s.zone := rfl
@[simp] theorem State.writeSlot_tests (s : State) (n off : Nat) (bs : List Byte) : (s.writeSlot n off bs).tests = s.tests := rfl
@[simp] theorem State.writeSlot_people (s : State) (n off : Nat) (bs : List Byte) : (s.writeSlot n off bs).people = s.people := rfl
@[simp] theorem State.writeSlot_haul (s : State) (n off : Nat) (bs : List Byte) : (s.writeSlot n off bs).haul = s.haul := rfl
@[simp] theorem State.writeSlot_route (s : State) (n off : Nat) (bs : List Byte) : (s.writeSlot n off bs).route = s.route := rfl
@[simp] theorem State.writeSlot_evac (s : State) (n off : Nat) (bs : List Byte) : (s.writeSlot n off bs).evac = s.evac := rfl
@[simp] theorem State.writeSlot_alarm (s : State) (n off : Nat) (bs : List Byte) : (s.writeSlot n off bs).alarm = s.alarm := rfl
@[simp] theorem State.writeSlot_supply (s : State) (n off : Nat) (bs : List Byte) : (s.writeSlot n off bs).supply = s.supply := rfl
@[simp] theorem State.writeSlot_work (s : State) (n off : Nat) (bs : List Byte) : (s.writeSlot n off bs).work = s.work := rfl
@[simp] theorem State.writeSlot_pending (s : State) (n off : Nat) (bs : List Byte) : (s.writeSlot n off bs).pending = s.pending := rfl

@[simp] theorem State.passTime_port (s : State) : (s.passTime).port = s.port := rfl
@[simp] theorem State.passTime_orders (s : State) : (s.passTime).orders = s.orders := rfl
@[simp] theorem State.passTime_loop (s : State) : (s.passTime).loop = s.loop := rfl
@[simp] theorem State.passTime_air (s : State) : (s.passTime).air = s.air := rfl
@[simp] theorem State.passTime_zone (s : State) : (s.passTime).zone = s.zone := rfl
@[simp] theorem State.passTime_tests (s : State) : (s.passTime).tests = s.tests := rfl
@[simp] theorem State.passTime_people (s : State) : (s.passTime).people = s.people := rfl
@[simp] theorem State.passTime_haul (s : State) : (s.passTime).haul = s.haul := rfl
@[simp] theorem State.passTime_route (s : State) : (s.passTime).route = s.route := rfl
@[simp] theorem State.passTime_evac (s : State) : (s.passTime).evac = s.evac := rfl
@[simp] theorem State.passTime_alarm (s : State) : (s.passTime).alarm = s.alarm := rfl
@[simp] theorem State.passTime_work (s : State) : (s.passTime).work = s.work := rfl
@[simp] theorem State.passTime_pending (s : State) : (s.passTime).pending = s.pending := rfl

@[simp] theorem State.bumpNow_port_board (s : State) (a : Nat) : (s.bumpNow a).port.board = s.port.board := rfl
@[simp] theorem State.bumpNow_port_causes (s : State) (a : Nat) : (s.bumpNow a).port.causes = s.port.causes := rfl
@[simp] theorem State.bumpNow_port_notice (s : State) (a : Nat) : (s.bumpNow a).port.notice = s.port.notice := rfl
@[simp] theorem State.bumpNow_port_enable (s : State) (a : Nat) : (s.bumpNow a).port.enable = s.port.enable := rfl
@[simp] theorem State.bumpNow_port_written (s : State) (a : Nat) : (s.bumpNow a).port.written = s.port.written := rfl
@[simp] theorem State.bumpNow_port_capture (s : State) (a : Nat) : (s.bumpNow a).port.capture = s.port.capture := rfl
@[simp] theorem State.bumpNow_port_taken (s : State) (a : Nat) : (s.bumpNow a).port.taken = s.port.taken := rfl
@[simp] theorem State.bumpNow_port_held (s : State) (a : Nat) : (s.bumpNow a).port.held = s.port.held := rfl
@[simp] theorem State.bumpNow_port_fullEpisode (s : State) (a : Nat) : (s.bumpNow a).port.fullEpisode = s.port.fullEpisode := rfl
@[simp] theorem State.bumpNow_port_log (s : State) (a : Nat) : (s.bumpNow a).port.log = s.port.log := rfl
@[simp] theorem State.bumpNow_port_badBytes (s : State) (a : Nat) : (s.bumpNow a).port.badBytes = s.port.badBytes := rfl
@[simp] theorem State.bumpNow_port_hostData (s : State) (a : Nat) : (s.bumpNow a).port.hostData = s.port.hostData := rfl
@[simp] theorem State.bumpNow_port_shownMine (s : State) (a : Nat) : (s.bumpNow a).port.shownMine = s.port.shownMine := rfl
@[simp] theorem State.bumpNow_port_shownRun (s : State) (a : Nat) : (s.bumpNow a).port.shownRun = s.port.shownRun := rfl
@[simp] theorem State.bumpNow_port_refreshAt (s : State) (a : Nat) : (s.bumpNow a).port.refreshAt = s.port.refreshAt := rfl

@[simp] theorem State.raise_port_board (s : State) (c : Cause) : (s.raise c).port.board = s.port.board := rfl
@[simp] theorem State.raise_port_versions (s : State) (c : Cause) : (s.raise c).port.versions = s.port.versions := rfl
@[simp] theorem State.raise_port_enable (s : State) (c : Cause) : (s.raise c).port.enable = s.port.enable := rfl
@[simp] theorem State.raise_port_written (s : State) (c : Cause) : (s.raise c).port.written = s.port.written := rfl
@[simp] theorem State.raise_port_capture (s : State) (c : Cause) : (s.raise c).port.capture = s.port.capture := rfl
@[simp] theorem State.raise_port_taken (s : State) (c : Cause) : (s.raise c).port.taken = s.port.taken := rfl
@[simp] theorem State.raise_port_held (s : State) (c : Cause) : (s.raise c).port.held = s.port.held := rfl
@[simp] theorem State.raise_port_fullEpisode (s : State) (c : Cause) : (s.raise c).port.fullEpisode = s.port.fullEpisode := rfl
@[simp] theorem State.raise_port_log (s : State) (c : Cause) : (s.raise c).port.log = s.port.log := rfl
@[simp] theorem State.raise_port_badBytes (s : State) (c : Cause) : (s.raise c).port.badBytes = s.port.badBytes := rfl
@[simp] theorem State.raise_port_hostData (s : State) (c : Cause) : (s.raise c).port.hostData = s.port.hostData := rfl
@[simp] theorem State.raise_port_shownMine (s : State) (c : Cause) : (s.raise c).port.shownMine = s.port.shownMine := rfl
@[simp] theorem State.raise_port_shownRun (s : State) (c : Cause) : (s.raise c).port.shownRun = s.port.shownRun := rfl
@[simp] theorem State.raise_port_refreshAt (s : State) (c : Cause) : (s.raise c).port.refreshAt = s.port.refreshAt := rfl

@[simp] theorem State.writeSlot_port_versions (s : State) (n off : Nat) (bs : List Byte) : (s.writeSlot n off bs).port.versions = s.port.versions := rfl
@[simp] theorem State.writeSlot_port_causes (s : State) (n off : Nat) (bs : List Byte) : (s.writeSlot n off bs).port.causes = s.port.causes := rfl
@[simp] theorem State.writeSlot_port_notice (s : State) (n off : Nat) (bs : List Byte) : (s.writeSlot n off bs).port.notice = s.port.notice := rfl
@[simp] theorem State.writeSlot_port_enable (s : State) (n off : Nat) (bs : List Byte) : (s.writeSlot n off bs).port.enable = s.port.enable := rfl
@[simp] theorem State.writeSlot_port_written (s : State) (n off : Nat) (bs : List Byte) : (s.writeSlot n off bs).port.written = s.port.written := rfl
@[simp] theorem State.writeSlot_port_capture (s : State) (n off : Nat) (bs : List Byte) : (s.writeSlot n off bs).port.capture = s.port.capture := rfl
@[simp] theorem State.writeSlot_port_taken (s : State) (n off : Nat) (bs : List Byte) : (s.writeSlot n off bs).port.taken = s.port.taken := rfl
@[simp] theorem State.writeSlot_port_held (s : State) (n off : Nat) (bs : List Byte) : (s.writeSlot n off bs).port.held = s.port.held := rfl
@[simp] theorem State.writeSlot_port_fullEpisode (s : State) (n off : Nat) (bs : List Byte) : (s.writeSlot n off bs).port.fullEpisode = s.port.fullEpisode := rfl
@[simp] theorem State.writeSlot_port_log (s : State) (n off : Nat) (bs : List Byte) : (s.writeSlot n off bs).port.log = s.port.log := rfl
@[simp] theorem State.writeSlot_port_hostData (s : State) (n off : Nat) (bs : List Byte) : (s.writeSlot n off bs).port.hostData = s.port.hostData := rfl
@[simp] theorem State.writeSlot_port_shownMine (s : State) (n off : Nat) (bs : List Byte) : (s.writeSlot n off bs).port.shownMine = s.port.shownMine := rfl
@[simp] theorem State.writeSlot_port_shownRun (s : State) (n off : Nat) (bs : List Byte) : (s.writeSlot n off bs).port.shownRun = s.port.shownRun := rfl
@[simp] theorem State.writeSlot_port_refreshAt (s : State) (n off : Nat) (bs : List Byte) : (s.writeSlot n off bs).port.refreshAt = s.port.refreshAt := rfl

/-- An abandoned exchange that is no assignment's ends with nothing done but the loop set free. -/
theorem State.endAbandoned_of_ne (s : State) {ex : Exchange} (h : ex.purpose ≠ .assignCheck) : s.endAbandoned ex = s.freeLoop := by
  unfold State.endAbandoned
  split
  · exact absurd ‹_› h
  · rfl

/-- An abandoned IDENTIFY of the running assignment has not brought its serial. -/
theorem State.endAbandoned_assignCheck (s : State) {ex : Exchange} {x : Assignment} (h : ex.purpose = .assignCheck)
    (ha : s.assigning = some x) : s.endAbandoned ex = (s.assignMissed x).freeLoop := by
  simp [State.endAbandoned, h, ha]

/-- RETIRE HEAD's abandonment leaves the head records and what the loop keeps inside of them. -/
@[simp] theorem State.abandon_heads (s : State) (a : Nat) : (s.abandon a).loop.heads = s.loop.heads := rfl
@[simp] theorem State.abandon_inner (s : State) (a : Nat) : (s.abandon a).loop.inner = s.loop.inner := rfl
@[simp] theorem State.abandon_rollCall (s : State) (a : Nat) : (s.abandon a).loop.rollCall = s.loop.rollCall := rfl
@[simp] theorem State.abandon_assignment (s : State) (a : Nat) : (s.abandon a).loop.assignment = s.loop.assignment := rfl

end Sys2Proof.Machine
end

