-- ==== Sys2Proof/Laws/Steady.lean ====
section
/-! SUPPORT. The frame of an event's hand-offs between units: what reports, record updates, news, zone evaluations, recomputes
and the evacuation machine leave alone (`Steady`), operation by operation. -/

namespace Sys2Proof.Machine

open Sys2Proof.Config

/-- What a hand-off keeps: the fields outside `steadyPart`'s blanks, every configuration, every tag's and vehicle's place, set
latches and trips, the relay rule, the legal NOTICE bits, an evacuation in ALERTING, and, while no test is in flight, an empty
list of tests to abort. -/
structure Steady (s t : State) : Prop where
  still : t.steadyPart = s.steadyPart
  conf : ∀ z, (t.zoneRec z).conf = (s.zoneRec z).conf
  miners : ∀ i, (t.miner? i).map Miner.place = (s.miner? i).map Miner.place
  vehicles : ∀ i, (t.vehicle? i).map Vehicle.place = (s.vehicle? i).map Vehicle.place
  refuges : ∀ i, (t.refuge? i).map Refuge.place = (s.refuge? i).map Refuge.place
  latches : ∀ z, s.latched z = true → t.latched z = true
  tripped : ∀ z, (s.zoneRec z).trip = .tripped → (t.zoneRec z).trip = .tripped
  relay : s.relaySafe → t.relaySafe
  notice : s.noticeLegal → t.noticeLegal
  alerting : s.evac.state = .alerting → t.evac.state = .alerting
  evacuating : s.supply.retained.evacActive = true → t.supply.retained.evacActive = true
  aborts : s.noTests → s.work.aborts = [] → t.work.aborts = []

theorem Steady.rfl {s : State} : Steady s s := by constructor <;> simp

theorem Steady.trans {s t u : State} (h : Steady s t) (k : Steady t u) : Steady s u where
  still := k.still.trans h.still
  conf z := (k.conf z).trans (h.conf z)
  miners i := (k.miners i).trans (h.miners i)
  vehicles i := (k.vehicles i).trans (h.vehicles i)
  refuges i := (k.refuges i).trans (h.refuges i)
  latches z := k.latches z ∘ h.latches z
  tripped z := k.tripped z ∘ h.tripped z
  relay := k.relay ∘ h.relay
  notice := k.notice ∘ h.notice
  alerting := k.alerting ∘ h.alerting
  evacuating := k.evacuating ∘ h.evacuating
  aborts n a := by
    have e := congrArg (fun u : State => u.tests) h.still
    have e' : t.tests = s.tests := e
    exact k.aborts (by unfold State.noTests at n ⊢; rw [e']; exact n) (h.aborts n a)

theorem Steady.after {s t u : State} (k : Steady t u) (h : Steady s t) : Steady s u := h.trans k

theorem relaySafe_of_eq {s t : State} (hz : t.zone.zones = s.zone.zones) (hp : t.supply.phase = s.supply.phase)
    (hl : t.supply.retained.latches = s.supply.retained.latches) (h : s.relaySafe) : t.relaySafe := by
  intro z hc
  have he : t.zoneRec z = s.zoneRec z := by simp [State.zoneRec, hz]
  rw [he] at hc ⊢
  have := h z hc
  simpa [State.running, State.latched, hp, hl] using this

/-- A change outside the records and flags that `Steady` follows, but for NOTICE, is steady. -/
theorem Steady.of_eq {s t : State} (still : t.steadyPart = s.steadyPart) (zones : t.zone.zones = s.zone.zones)
    (roster : t.people.roster = s.people.roster) (vehicles : t.haul.vehicles = s.haul.vehicles)
    (refuges : t.route.refuges = s.route.refuges) (retained : t.supply.retained = s.supply.retained)
    (evac : t.evac.state = s.evac.state) (notice : s.noticeLegal → t.noticeLegal)
    (aborts : s.noTests → s.work.aborts = [] → t.work.aborts = []) : Steady s t where
  still := still
  conf z := by simp [State.zoneRec, zones]
  miners i := by simp [State.miner?, roster]
  vehicles i := by simp [State.vehicle?, vehicles]
  refuges i := by simp [State.refuge?, refuges]
  latches z h := by simpa [State.latched, retained] using h
  tripped z h := by simpa [State.zoneRec, zones] using h
  relay := by
    have hp := congrArg (fun u : State => u.supply.phase) still
    exact relaySafe_of_eq zones hp (by rw [retained])
  notice := notice
  alerting h := by rw [evac]; exact h
  evacuating h := by rw [retained]; exact h
  aborts := aborts

/-- The steps of a fold are steady, so the fold is. -/
theorem Steady.foldl {α : Type} {f : State → α → State} (hf : ∀ s a, Steady s (f s a)) :
    ∀ (l : List α) (s : State), Steady s (l.foldl f s)
  | [], _ => .rfl
  | a :: l, s => (hf s a).trans (Steady.foldl hf l (f s a))

theorem Steady.forEach {f : Nat → State → State} (hf : ∀ i s, Steady s (f i s)) (l : List Nat) (s : State) :
    Steady s (forEach l f s) := Steady.foldl (fun s i => hf i s) l s

theorem Steady.ite {s t u : State} {c : Prop} [Decidable c] (ht : Steady s t) (hu : Steady s u) :
    Steady s (if c then t else u) := by split <;> assumption

/-! ### News and record updates -/

theorem steady_bump (s : State) (a : Nat) : Steady s (s.bump a) :=
  .of_eq rfl rfl rfl rfl rfl rfl rfl id fun _ => id

theorem steady_bumpNow (s : State) (a : Nat) : Steady s (s.bumpNow a) :=
  .of_eq rfl rfl rfl rfl rfl rfl rfl id fun _ => id

theorem steady_bumpGuest (s : State) (g : Guest) (a : Nat) : Steady s (s.bumpGuest g a) := by
  unfold State.bumpGuest; exact .ite .rfl (.of_eq rfl rfl rfl rfl rfl rfl rfl id fun _ => id)

theorem steady_bumpSummary (s : State) : Steady s s.bumpSummary := steady_bump s _

theorem steady_askRecompute (s : State) : Steady s s.askRecompute := .of_eq rfl rfl rfl rfl rfl rfl rfl id fun _ => id

theorem steady_handMeet (s : State) (i : Nat) (gone : Bool) : Steady s (s.handMeet i gone) :=
  .of_eq rfl rfl rfl rfl rfl rfl rfl id fun _ => id

theorem steady_handEvac (s : State) (e : EvacTask) : Steady s (s.handEvac e) :=
  .of_eq rfl rfl rfl rfl rfl rfl rfl id fun _ => id

/-- A raise sets a bit among 6..0 of NOTICE. -/
theorem noticeLegal_raise {s : State} (c : Cause) (h : s.noticeLegal) : (s.raise c).noticeLegal := by
  have hor : ∀ n g m : Half, n &&& m = 0#16 → g &&& m = 0#16 → (n ||| g) &&& m = 0#16 := by
    intro n g m hn hg
    rw [BitVec.and_comm, BitVec.and_or_distrib_left, BitVec.and_comm m n, BitVec.and_comm m g, hn, hg]
    rfl
  refine ⟨hor _ _ _ h.1 ?_, h.2⟩
  cases c <;> decide

theorem steady_raise (s : State) (c : Cause) : Steady s (s.raise c) :=
  .of_eq rfl rfl rfl rfl rfl rfl rfl (noticeLegal_raise c) fun _ => id

theorem steady_raiseIf (s : State) (b : Bool) (c : Cause) : Steady s (s.raiseIf b c) := by
  unfold State.raiseIf; exact .ite (steady_raise s c) .rfl

theorem steady_raiseOnce (s : State) (c : Cause) (k : Nat) : Steady s (s.raiseOnce c k) := by
  unfold State.raiseOnce
  exact .ite .rfl (.after (steady_raise _ _) (.of_eq rfl rfl rfl rfl rfl rfl rfl id fun _ => id))

theorem steady_raiseOnceIf (s : State) (b : Bool) (c : Cause) (k : Nat) : Steady s (s.raiseOnceIf b c k) := by
  unfold State.raiseOnceIf; exact .ite (steady_raiseOnce s c k) .rfl

theorem steady_append (s : State) (kind cls index a b : Nat) : Steady s (s.append kind cls index a b) :=
  .of_eq rfl rfl rfl rfl rfl rfl rfl id fun _ => id

theorem steady_tellNow (s : State) : Steady s s.tellNow := .of_eq rfl rfl rfl rfl rfl rfl rfl id fun _ => id

theorem steady_appendNow (s : State) (n : News) : Steady s (s.appendNow n) := by
  unfold State.appendNow
  split
  · exact .ite .rfl (.after (steady_raise _ _) (.of_eq rfl rfl rfl rfl rfl rfl rfl id fun _ => id))
  · exact .after (steady_raise _ _) (.of_eq rfl rfl rfl rfl rfl rfl rfl id fun _ => id)

theorem steady_flush (s : State) : Steady s s.flush :=
  Steady.trans (t := { s with work.dirty := [], work.guests := [], work.news := [], work.late := [], work.raised := [] })
    (.of_eq rfl rfl rfl rfl rfl rfl rfl id fun _ => id)
    (.after (Steady.foldl (fun s n => steady_appendNow s n) _ _) (Steady.foldl (fun s a => steady_bumpNow s a) _ _))

theorem steady_appendIf (s : State) (c : Bool) (kind cls index a b : Nat) :
    Steady s (s.appendIf c kind cls index a b) := by
  unfold State.appendIf; exact .ite (steady_append s kind cls index a b) .rfl

theorem steady_bumpPositions {α : Type} [DecidableEq α] (base size : Nat) :
    ∀ (xs ys : List α) (i : Nat) (s : State), Steady s (State.bumpPositions base size xs ys i s)
  | [], [], _, _ => by rw [State.bumpPositions]; exact .rfl
  | _ :: xs, [], i, s => by
    rw [State.bumpPositions]
    exact (steady_bump s _).trans (steady_bumpPositions base size xs [] (i + 1) _)
  | [], _ :: ys, i, s => by
    rw [State.bumpPositions]
    exact (steady_bump s _).trans (steady_bumpPositions base size [] ys (i + 1) _)
  | x :: xs, y :: ys, i, s => by
    rw [State.bumpPositions]
    exact (Steady.ite .rfl (steady_bump s _)).trans (steady_bumpPositions base size xs ys (i + 1) _)

theorem zoneRec_bump (s : State) (a z : Nat) : (s.bump a).zoneRec z = s.zoneRec z := rfl

/-- What a zone's record is after a zone's record update. -/
theorem zoneRec_putZone (s : State) (z y : Nat) (r : Zone) :
    (s.putZone z r).zoneRec y = if z = y then r else s.zoneRec y := by
  unfold State.putZone
  split
  · next h => by_cases hy : z = y <;> simp [hy]; subst hy; exact h
  · show (lookupAt (storeAt s.zone.zones z r) y).getD Zone.blank = _
    rw [lookupAt_storeAt]
    by_cases hy : z = y <;> simp [hy, State.zoneRec]

/-- Fields of a zone written that keep configuration, trip, relay command and cover. -/
theorem steady_storeZone (s : State) (z : Nat) (r : Zone) (hconf : r.conf = (s.zoneRec z).conf)
    (htrip : r.trip = (s.zoneRec z).trip) (hclosed : r.closed = (s.zoneRec z).closed)
    (hcovered : r.covered = (s.zoneRec z).covered) :
    Steady s { s with zone.zones := storeAt s.zone.zones z r } :=
  have hz (y : Nat) : ({ s with zone.zones := storeAt s.zone.zones z r } : State).zoneRec y =
      if z = y then r else s.zoneRec y := by
    show (lookupAt (storeAt s.zone.zones z r) y).getD Zone.blank = _
    rw [lookupAt_storeAt]
    by_cases hy : z = y <;> simp [hy, State.zoneRec]
  { still := rfl
    conf := fun y => by rw [hz]; split <;> simp_all
    miners := fun _ => rfl
    vehicles := fun _ => rfl
    refuges := fun _ => rfl
    latches := fun _ => id
    tripped := fun y h => by rw [hz]; split <;> simp_all
    relay := fun h y hy => by
      show s.running = true ∧ s.latched y = false ∧ _
      rw [hz] at hy ⊢
      split at hy
      · next e =>
        subst e
        have hpow := congrArg Zone.powered hconf
        change r.powered = (s.zoneRec z).powered at hpow
        have huse := congrArg Zone.inUse hconf
        change r.inUse = (s.zoneRec z).inUse at huse
        have := h z (hclosed ▸ hy)
        simpa [htrip, hpow, huse, hcovered] using this
      · simpa [*] using h y hy
    notice := id
    alerting := id
    evacuating := id
    aborts := fun _ => id }

/-- A zone's record update that keeps configuration, trip, relay command and cover. -/
theorem steady_putZone (s : State) (z : Nat) (r : Zone) (hconf : r.conf = (s.zoneRec z).conf)
    (htrip : r.trip = (s.zoneRec z).trip) (hclosed : r.closed = (s.zoneRec z).closed)
    (hcovered : r.covered = (s.zoneRec z).covered) : Steady s (s.putZone z r) := by
  unfold State.putZone; exact .ite .rfl (.after (steady_bump _ _) (steady_storeZone s z r hconf htrip hclosed hcovered))

/-- A guest's write of a zone's count. -/
theorem steady_putZoneAs (s : State) (g : Guest) (z : Nat) (r : Zone) (hconf : r.conf = (s.zoneRec z).conf)
    (htrip : r.trip = (s.zoneRec z).trip) (hclosed : r.closed = (s.zoneRec z).closed)
    (hcovered : r.covered = (s.zoneRec z).covered) : Steady s (s.putZoneAs g z r) := by
  unfold State.putZoneAs
  exact .ite .rfl (.after (steady_bumpGuest _ _ _) (steady_storeZone s z r hconf htrip hclosed hcovered))

theorem miner_putMiner (s : State) (i j : Nat) (m : Miner) :
    (s.putMiner i m).miner? j = if i = j then some m else s.miner? j := by
  unfold State.putMiner
  split
  · next h => by_cases hj : i = j <;> simp [hj]; subst hj; exact h
  · show lookupAt (storeAt s.people.roster i m) j = _
    rw [lookupAt_storeAt]; rfl

/-- Fields of a roster entry written that keep the entry's place. -/
theorem steady_storeMiner (s : State) (i : Nat) (m : Miner) (h : (s.miner? i).map Miner.place = some m.place) :
    Steady s { s with people.roster := storeAt s.people.roster i m } where
  still := rfl
  conf _ := rfl
  miners j := by
    show (lookupAt (storeAt s.people.roster i m) j).map Miner.place = _
    rw [lookupAt_storeAt]
    split
    · next e => subst e; exact h.symm
    · rfl
  vehicles _ := rfl
  refuges _ := rfl
  latches _ := id
  tripped _ := id
  relay := id
  notice := id
  alerting := id
  evacuating := id
  aborts _ := id

/-- A roster record update that keeps the entry's place. -/
theorem steady_putMiner (s : State) (i : Nat) (m : Miner) (h : (s.miner? i).map Miner.place = some m.place) :
    Steady s (s.putMiner i m) := by
  unfold State.putMiner; exact .ite .rfl (.after (steady_bump _ _) (steady_storeMiner s i m h))

/-- The Evacuation Unit's record update of a roster entry. -/
theorem steady_putMuster (s : State) (i : Nat) (m : Miner) (h : (s.miner? i).map Miner.place = some m.place) :
    Steady s (s.putMuster i m) := by
  unfold State.putMuster; exact .ite .rfl (.after (steady_bumpGuest _ _ _) (steady_storeMiner s i m h))

theorem vehicle_putVehicle (s : State) (i j : Nat) (v : Vehicle) :
    (s.putVehicle i v).vehicle? j = if i = j then some v else s.vehicle? j := by
  unfold State.putVehicle
  split
  · next h => by_cases hj : i = j <;> simp [hj]; subst hj; exact h
  · show lookupAt (storeAt s.haul.vehicles i v) j = _
    rw [lookupAt_storeAt]; rfl

/-- A vehicle record update that keeps the vehicle's place. -/
theorem steady_putVehicle (s : State) (i : Nat) (v : Vehicle) (h : (s.vehicle? i).map Vehicle.place = some v.place) :
    Steady s (s.putVehicle i v) where
  still := by unfold State.putVehicle; split <;> rfl
  conf y := by unfold State.putVehicle; split <;> rfl
  miners i := by unfold State.putVehicle; split <;> rfl
  vehicles j := by
    rw [vehicle_putVehicle]
    split
    · next e => subst e; exact h.symm
    · exact Eq.refl _
  refuges i := by unfold State.putVehicle; split <;> rfl
  latches y h := by unfold State.putVehicle; split <;> exact h
  tripped y h := by unfold State.putVehicle; split <;> exact h
  relay h := by unfold State.putVehicle; split <;> exact h
  notice h := by unfold State.putVehicle; split <;> exact h
  alerting h := by unfold State.putVehicle; split <;> exact h
  evacuating h := by unfold State.putVehicle; split <;> exact h
  aborts _ h := by unfold State.putVehicle; split <;> exact h

theorem refuge_putRefuge (s : State) (i j : Nat) (r : Refuge) :
    (s.putRefuge i r).refuge? j = if i = j then some r else s.refuge? j := by
  unfold State.putRefuge
  split
  · next h => by_cases hj : i = j <;> simp [hj]; subst hj; exact h
  · show lookupAt (storeAt s.route.refuges i r) j = _
    rw [lookupAt_storeAt]; rfl

/-- A refuge record update that keeps what is not judged. -/
theorem steady_putRefuge (s : State) (i : Nat) (r : Refuge) (h : (s.refuge? i).map Refuge.place = some r.place) :
    Steady s (s.putRefuge i r) where
  still := by unfold State.putRefuge; split <;> rfl
  conf y := by unfold State.putRefuge; split <;> rfl
  miners i := by unfold State.putRefuge; split <;> rfl
  vehicles i := by unfold State.putRefuge; split <;> rfl
  refuges j := by
    rw [refuge_putRefuge]
    split
    · next e => subst e; exact h.symm
    · exact Eq.refl _
  latches y h := by unfold State.putRefuge; split <;> exact h
  tripped y h := by unfold State.putRefuge; split <;> exact h
  relay h := by unfold State.putRefuge; split <;> exact h
  notice h := by unfold State.putRefuge; split <;> exact h
  alerting h := by unfold State.putRefuge; split <;> exact h
  evacuating h := by unfold State.putRefuge; split <;> exact h
  aborts _ h := by unfold State.putRefuge; split <;> exact h

theorem steady_putEscape (s : State) (z : Nat) (e : Escape) : Steady s (s.putEscape z e) := by
  unfold State.putEscape
  exact .ite .rfl (.of_eq rfl rfl rfl rfl rfl rfl rfl id fun _ => id)

theorem steady_putList (s : State) (r : Nat) (l : DownList) : Steady s (s.putList r l) := by
  unfold State.putList
  exact .ite .rfl (.of_eq rfl rfl rfl rfl rfl rfl rfl id fun _ => id)

theorem steady_putEncounters (s : State) (l : List Encounter) : Steady s (s.putEncounters l) := by
  unfold State.putEncounters
  exact .after (steady_bumpPositions _ _ _ _ _ _) (.of_eq rfl rfl rfl rfl rfl rfl rfl id fun _ => id)

/-! ### The Alarm Output Unit -/

theorem steady_markChanges (b s : State) : Steady s (State.markChanges b s) := by
  unfold State.markChanges
  exact .ite (.of_eq rfl rfl rfl rfl rfl rfl rfl id fun _ => id) .rfl

theorem steady_setChoice (s : State) (z : Nat) (i : Bool) : Steady s (s.setChoice z i) :=
  .of_eq rfl rfl rfl rfl rfl rfl rfl id fun _ => id

theorem steady_restartPlay (s : State) : Steady s s.restartPlay := .of_eq rfl rfl rfl rfl rfl rfl rfl id fun _ => id

theorem steady_judgePlay (s : State) : Steady s s.judgePlay := by
  unfold State.judgePlay; exact .ite .rfl (steady_restartPlay s)

theorem steady_judgeDistrict (s : State) : Steady s s.judgeDistrict := by
  unfold State.judgeDistrict
  dsimp only
  refine .ite .rfl (.after (steady_restartPlay _) (.after (steady_append _ _ _ _ _ _) (.after (steady_bumpSummary _) ?_)))
  exact .of_eq rfl rfl rfl rfl rfl rfl rfl id fun _ => id

theorem steady_judgeContacts (s : State) : Steady s s.judgeContacts := by
  unfold State.judgeContacts
  exact .after (steady_appendIf _ _ _ _ _ _ _) (.after (steady_appendIf _ _ _ _ _ _ _)
    (.of_eq rfl rfl rfl rfl rfl rfl rfl id fun _ => id))

theorem steady_alarmZone (s : State) (z : Nat) (c k : Bool) : Steady s (s.alarmZone z c k) := by
  unfold State.alarmZone
  dsimp only
  have h : Steady s (if c = true then (State.markChanges s (s.setChoice z true)).judgeDistrict else s) :=
    .ite (((steady_setChoice s z true).trans (steady_markChanges _ _)).trans (steady_judgeDistrict _)) .rfl
  exact .ite (.after (steady_judgeContacts _) h) h

theorem steady_judgeAllChoices (s : State) : Steady s s.judgeAllChoices := by
  unfold State.judgeAllChoices
  exact (Steady.forEach (fun z s => steady_setChoice s z false) _ _).trans (steady_markChanges _ _)

/-! ### Conditions -/

theorem steady_mapEntries (s : State) (f : DownEntry → DownEntry) : Steady s (s.mapEntries f) :=
  Steady.foldl (fun s (p : Nat × DownList) => steady_putList s p.1 _) _ _

theorem steady_assertCond (s : State) (ref : TagRef) (k : DownKind) (c t n : Nat) :
    Steady s (s.assertCond ref k c t n) := by
  unfold State.assertCond
  split
  · exact .of_eq rfl rfl rfl rfl rfl rfl rfl id fun _ => id
  · exact .ite .rfl (.after (steady_mapEntries _ _) (.of_eq rfl rfl rfl rfl rfl rfl rfl id fun _ => id))

theorem steady_endCond (s : State) (ref : TagRef) (k : DownKind) : Steady s (s.endCond ref k) :=
  .of_eq rfl rfl rfl rfl rfl rfl rfl id fun _ => id

theorem steady_endAllConds (s : State) (ref : TagRef) : Steady s (s.endAllConds ref) :=
  .of_eq rfl rfl rfl rfl rfl rfl rfl id fun _ => id

theorem steady_ackCond (s : State) (ref : TagRef) (k : DownKind) : Steady s (s.ackCond ref k) :=
  .of_eq rfl rfl rfl rfl rfl rfl rfl id fun _ => id

/-! ### The Vehicle Unit -/

theorem steady_judgeCommand (s : State) (i : Nat) : Steady s (s.judgeCommand i) := by
  unfold State.judgeCommand
  split
  · exact .ite (steady_endCond _ _ _) (steady_assertCond _ _ _ _ _ _)
  · exact steady_endCond _ _ _

theorem steady_judgeNear (s : State) (m : Nat) : Steady s (s.judgeNear m) := by
  unfold State.judgeNear
  split
  · exact steady_assertCond _ _ _ _ _ _
  · exact steady_endCond _ _ _

theorem steady_logVehicleSide (s : State) (i : Nat) (b a : Option Vehicle) : Steady s (s.logVehicleSide i b a) := by
  unfold State.logVehicleSide
  exact .ite ((steady_append _ _ _ _ _ _).trans (steady_append _ _ _ _ _ _)) (steady_appendIf _ _ _ _ _ _ _)

theorem steady_logOnboard (s : State) (i : Nat) (b a : Option Vehicle) : Steady s (s.logOnboard i b a) := by
  unfold State.logOnboard
  split
  · exact .rfl
  · exact steady_appendIf _ _ _ _ _ _ _

theorem steady_logCommand (s : State) (i : Nat) (b a : Option Vehicle) : Steady s (s.logCommand i b a) := by
  unfold State.logCommand
  split
  · exact .rfl
  · exact steady_appendIf _ _ _ _ _ _ _

theorem steady_logOverflow (s : State) (i : Nat) (b a : Option Vehicle) (l : List (Nat × Nat)) :
    Steady s (s.logOverflow i b a l) := by
  unfold State.logOverflow
  dsimp only
  split
  · exact steady_appendIf _ _ _ _ _ _ _
  · exact .rfl

theorem steady_settleVehicles (s0 s1 : State) (ids : List Nat) (left : List (Nat × Nat)) (mid : State → State)
    (hm : Steady s1 (mid s1)) : Steady s1 (State.settleVehicles s0 s1 ids left mid) := by
  unfold State.settleVehicles
  dsimp only
  refine .after (Steady.forEach (fun i s => steady_logOverflow s i _ _ _) _ _) ?_
  refine .after (Steady.forEach (fun i s => steady_logCommand s i _ _) _ _) ?_
  refine .after (Steady.forEach (fun i s => steady_logOnboard s i _ _) _ _) ?_
  refine .after (Steady.forEach (fun i s => steady_logVehicleSide s i _ _) _ _) ?_
  refine .after (steady_raiseOnceIf _ _ _ _) ?_
  refine .after (Steady.forEach (fun _ s => steady_raiseOnceIf s _ _ _) _ _) ?_
  refine .after (Steady.forEach (fun i s =>
    .after (steady_judgeCommand _ _) (Steady.ite (steady_endCond _ _ _) Steady.rfl)) _ _) ?_
  exact .after (Steady.forEach (fun m s => steady_judgeNear s m) _ _) hm

/-- The components a record is dressed with keep the vehicle's place. -/
theorem place_dressVehicle (s : State) (i : Nat) (v : Vehicle) : (s.dressVehicle i v).place = v.place := rfl

theorem steady_redressVehicle (s : State) (i : Nat) : Steady s (s.redressVehicle i) := by
  unfold State.redressVehicle
  split
  · next v h => exact steady_putVehicle s i _ (by rw [h, place_dressVehicle]; rfl)
  · exact .rfl

theorem steady_refreshVehicles (s : State) : Steady s s.refreshVehicles :=
  (Steady.forEach (fun i s => steady_redressVehicle s i) _ _).trans (steady_settleVehicles _ _ _ _ _ .rfl)

theorem steady_vehicleTrip (s : State) (z : Nat) : Steady s (s.vehicleTrip z) :=
  .after (steady_refreshVehicles _) (.of_eq rfl rfl rfl rfl rfl rfl rfl id fun _ => id)

theorem steady_vehicleClear (s : State) (z : Nat) : Steady s (s.vehicleClear z) :=
  .after (steady_refreshVehicles _) (.of_eq rfl rfl rfl rfl rfl rfl rfl id fun _ => id)

theorem steady_giveVehicleFlag (s : State) (b : Bool) : Steady s (s.giveVehicleFlag b) := by
  unfold State.giveVehicleFlag
  exact .ite .rfl (.after (steady_refreshVehicles _) (.of_eq rfl rfl rfl rfl rfl rfl rfl id fun _ => id))

/-- Places of vehicles are the same in a state with other contents of the encounter list. -/
theorem vehicle_putEncounters (s : State) (l : List Encounter) (i : Nat) :
    ((s.putEncounters l).vehicle? i).map Vehicle.place = (s.vehicle? i).map Vehicle.place :=
  (steady_putEncounters s l).vehicles i

theorem steady_takeEvaluation (s : State) (l : List Encounter) (left : List (Nat × Nat)) :
    Steady s (s.takeEvaluation l left) := by
  unfold State.takeEvaluation
  refine (steady_putEncounters s l).trans (Steady.trans (Steady.forEach ?_ _ _) (steady_settleVehicles _ _ _ _ _ .rfl))
  intro i s
  split
  · next v h => exact steady_putVehicle s i _ (by rw [h, place_dressVehicle]; rfl)
  · exact .rfl

theorem steady_minerEncounters (s : State) (i : Nat) : Steady s (s.minerEncounters i) := by
  unfold State.minerEncounters
  split
  · exact steady_takeEvaluation _ _ _
  · exact .rfl

theorem steady_dropMinerEncounters (s : State) (i : Nat) : Steady s (s.dropMinerEncounters i) :=
  steady_takeEvaluation _ _ _

theorem steady_takeMeet (s : State) (i : Nat) (gone : Bool) : Steady s (s.takeMeet i gone) :=
  .after (steady_minerEncounters _ _) (.ite (steady_dropMinerEncounters s i) .rfl)

theorem steady_countVehicles (s : State) (z : Nat) : Steady s (s.countVehicles z) := by
  unfold State.countVehicles
  exact .ite (steady_putZoneAs s _ z _ rfl rfl rfl rfl) .rfl

/-! ### Zone evaluation -/

theorem mem_insertNat (l : List Nat) (x y : Nat) : (insertNat l x).contains y = (decide (y = x) || l.contains y) := by
  induction l with
  | nil => simp [insertNat]
  | cons a l ih =>
    simp only [insertNat]
    split
    · simp
    · split
      · next h => subst h; simp
      · simp only [List.contains_cons, ih]; grind

theorem mem_removeNat (l : List Nat) (x y : Nat) : (removeNat l x).contains y = (!decide (y = x) && l.contains y) := by
  induction l with
  | nil => simp [removeNat]
  | cons a l ih => simp only [removeNat] at *; grind

/-- The latches after one is written. -/
theorem latched_setLatch (s : State) (z y : Nat) (on : Bool) :
    (s.setLatch z on).latched y = if y = z then on else s.latched y := by
  unfold State.setLatch State.latched
  cases on
  · simp only [Bool.false_eq_true, if_false, mem_removeNat]; grind
  · simp only [if_true, mem_insertNat]; grind

theorem steady_forPresent (s : State) (z : Nat) {f : Nat → State → State} (hf : ∀ i s, Steady s (f i s)) :
    Steady s (s.forPresent z f) := Steady.forEach hf _ _

theorem steady_peopleTrip (s : State) (z : Nat) (c : TripCause) : Steady s (s.peopleTrip z c) :=
  .after (steady_forPresent _ _ fun _ s => steady_assertCond s _ _ _ _ _) (.of_eq rfl rfl rfl rfl rfl rfl rfl id fun _ => id)

theorem steady_peopleCause (s : State) (z : Nat) (c : TripCause) : Steady s (s.peopleCause z c) := by
  refine .after (steady_forPresent _ _ fun _ s => ?_) (.of_eq rfl rfl rfl rfl rfl rfl rfl id fun _ => id)
  split
  · exact steady_assertCond s _ _ _ _ _
  · exact .rfl

theorem steady_peopleClear (s : State) (z : Nat) : Steady s (s.peopleClear z) :=
  .after (steady_forPresent _ _ fun _ s => steady_endCond s _ _) (.of_eq rfl rfl rfl rfl rfl rfl rfl id fun _ => id)

theorem steady_zoneHandOffs (s : State) (z : Nat) (o : ZoneOutcome) (c : Bool) : Steady s (s.zoneHandOffs z o c) := by
  unfold State.zoneHandOffs
  have h1 : Steady s (let s' := if c then s.peopleClear z else s
      if o.stage.tripped then
        (if o.newTrip c then s'.peopleTrip z (o.new.cause.getD .gas) else s'.peopleCause z (o.new.cause.getD .gas))
      else s') :=
    .after (.ite (.ite (steady_peopleTrip _ _ _) (steady_peopleCause _ _ _)) .rfl) (.ite (steady_peopleClear s z) .rfl)
  refine .trans h1 ?_
  refine .after (.ite .rfl (steady_handEvac _ _)) ?_
  refine .after (.ite .rfl (steady_askRecompute _)) ?_
  refine .after (steady_alarmZone _ _ _ _) ?_
  exact .after (.ite (steady_vehicleTrip _ _) .rfl) (.ite (steady_vehicleClear _ _) .rfl)

theorem steady_zoneEvents (s : State) (z : Nat) (o : ZoneOutcome) (c : Bool) : Steady s (s.zoneEvents z o c) := by
  unfold State.zoneEvents
  refine .after (steady_appendIf _ _ _ _ _ _ _) (.after (steady_appendIf _ _ _ _ _ _ _) (.after (steady_appendIf _ _ _ _ _ _ _)
    (.after (steady_appendIf _ _ _ _ _ _ _) (.after (steady_appendIf _ _ _ _ _ _ _) (.after (steady_appendIf _ _ _ _ _ _ _) ?_)))))
  split
  · exact .after (steady_append _ _ _ _ _ _) (steady_appendIf _ _ _ _ _ _ _)
  · exact steady_appendIf _ _ _ _ _ _ _

theorem testsIn_of_noTests (s : State) (z : Nat) (n : s.noTests) : s.testsIn z = [] := by
  obtain ⟨h1, h2, h3⟩ := n
  unfold State.testsIn
  simp [h1, h2, h3, keysOf]

theorem steady_reportToTests (s : State) (z : Nat) (c : Bool) : Steady s (s.reportToTests z c) := by
  unfold State.reportToTests
  refine .ite (.of_eq rfl rfl rfl rfl rfl rfl rfl id fun n h => ?_) .rfl
  show s.work.aborts ++ _ = []
  rw [h, testsIn_of_noTests s z n]
  rfl

/-- Everything of an evaluation after its record update is steady. -/
theorem steady_evaluate_written (s : State) (z : Nat) (e : ZoneEvent) :
    Steady (s.writeZone z (s.zoneStages z e)) (s.evaluate z e) := by
  unfold State.evaluate
  exact .after (steady_reportToTests _ _ _) (.after (steady_zoneEvents _ _ _ _) (.after (steady_raiseIf _ _ _)
    (steady_zoneHandOffs _ _ _ _)))

theorem stageCover_conf (s : State) (z : Nat) (r : Zone) : (s.stageCover z r).conf = r.conf := by
  unfold State.stageCover State.withAggregates; split <;> rfl

theorem stageCover_trip (s : State) (z : Nat) (r : Zone) : (s.stageCover z r).trip = r.trip := by
  unfold State.stageCover State.withAggregates; split <;> rfl

theorem stageRelay_conf (s : State) (z : Nat) (r : Zone) (t : TripStage) (l : Bool) :
    (s.stageRelay z r t l).conf = r.conf := rfl

theorem stageAir_conf (r : Zone) : r.stageAir.conf = r.conf := rfl

theorem stageCondition_conf (s : State) (z : Nat) (r : Zone) : (s.stageCondition z r).conf = r.conf := rfl

theorem stamped_conf (old new : Zone) (b : Bool) (n : Nat) : (Zone.stamped old new b n).conf = new.conf := rfl

theorem stamped_closed (old new : Zone) (b : Bool) (n : Nat) : (Zone.stamped old new b n).closed = new.closed := rfl

theorem stageCondition_closed (s : State) (z : Nat) (r : Zone) : (s.stageCondition z r).closed = r.closed := rfl

theorem stageAir_closed (r : Zone) : r.stageAir.closed = r.closed := rfl

theorem stamped_trip (old new : Zone) (b : Bool) (n : Nat) : (Zone.stamped old new b n).trip = new.trip := rfl

theorem stageCondition_trip (s : State) (z : Nat) (r : Zone) : (s.stageCondition z r).trip = r.trip := rfl

theorem stageAir_trip (r : Zone) : r.stageAir.trip = r.trip := rfl

theorem stamped_powered (old new : Zone) (b : Bool) (n : Nat) : (Zone.stamped old new b n).powered = new.powered := rfl

theorem stageCondition_powered (s : State) (z : Nat) (r : Zone) : (s.stageCondition z r).powered = r.powered := rfl

theorem stageAir_powered (r : Zone) : r.stageAir.powered = r.powered := rfl

theorem stamped_inUse (old new : Zone) (b : Bool) (n : Nat) : (Zone.stamped old new b n).inUse = new.inUse := rfl

theorem stageCondition_inUse (s : State) (z : Nat) (r : Zone) : (s.stageCondition z r).inUse = r.inUse := rfl

theorem stageAir_inUse (r : Zone) : r.stageAir.inUse = r.inUse := rfl

theorem stamped_covered (old new : Zone) (b : Bool) (n : Nat) : (Zone.stamped old new b n).covered = new.covered := rfl

theorem stageCondition_covered (s : State) (z : Nat) (r : Zone) : (s.stageCondition z r).covered = r.covered := rfl

theorem stageAir_covered (r : Zone) : r.stageAir.covered = r.covered := rfl

/-- The configuration an evaluation leaves is that of the record it starts from. -/
theorem conf_zoneStages (s : State) (z : Nat) (e : ZoneEvent) : (s.zoneStages z e).new.conf = e.start.conf := by
  unfold State.zoneStages
  rw [stamped_conf, stageCondition_conf, stageAir_conf, stageRelay_conf, stageCover_conf]

/-- The trip state an evaluation leaves is that of stage 2. -/
theorem trip_zoneStages (s : State) (z : Nat) (e : ZoneEvent) :
    (s.zoneStages z e).new.trip = (s.zoneStages z e).stage.trip := rfl

theorem zoneRec_writeZone (s : State) (z y : Nat) (o : ZoneOutcome) :
    (s.writeZone z o).zoneRec y = if z = y then o.new else s.zoneRec y := by
  have h : (s.writeZone z o).zoneRec y = ((s.setLatch z o.newLatch).putZone z o.new).zoneRec y := by
    unfold State.writeZone
    dsimp only
    split <;> split <;> rfl
  rw [h, zoneRec_putZone]; rfl

theorem latched_writeZone (s : State) (z y : Nat) (o : ZoneOutcome) :
    (s.writeZone z o).latched y = if y = z then o.newLatch else s.latched y := by
  rw [← latched_setLatch]
  unfold State.writeZone State.putZone
  dsimp only
  split <;> split <;> split <;> rfl

theorem closed_stageRelay (s : State) (z : Nat) (r : Zone) (t : TripStage) (l : Bool)
    (h : (s.stageRelay z r t l).closed = true) :
    s.running = true ∧ l = false ∧ t.trip ≠ .tripped ∧ r.powered = true ∧ r.inUse = true ∧
    (r.covered = true ∨ t.trip = .blindGrace) := by
  unfold State.stageRelay State.relayClosed at h
  rw [latched_setLatch, if_pos rfl] at h
  simp only [Bool.and_eq_true, Bool.or_eq_true, Bool.not_eq_true', decide_eq_true_eq, decide_eq_false_iff_not] at h
  obtain ⟨⟨⟨⟨⟨hp, hu⟩, hr⟩, hl⟩, ht⟩, hc⟩ := h
  exact ⟨hr, hl, ht, hp, hu, hc⟩

/-- A relay command that an evaluation leaves CLOSED meets R83. -/
theorem closed_zoneStages (s : State) (z : Nat) (e : ZoneEvent) (h : (s.zoneStages z e).new.closed = true) :
    s.running = true ∧ (s.zoneStages z e).newLatch = false ∧ (s.zoneStages z e).new.trip ≠ .tripped ∧
    (s.zoneStages z e).new.powered = true ∧ (s.zoneStages z e).new.inUse = true ∧
    ((s.zoneStages z e).new.covered = true ∨ (s.zoneStages z e).new.trip = .blindGrace) := by
  unfold State.zoneStages at h ⊢
  rw [stamped_closed, stageCondition_closed, stageAir_closed] at h
  have k := closed_stageRelay s z _ _ _ h
  rw [stamped_trip, stageCondition_trip, stageAir_trip, stamped_powered, stageCondition_powered, stageAir_powered,
    stamped_inUse, stageCondition_inUse, stageAir_inUse, stamped_covered, stageCondition_covered, stageAir_covered]
  exact k

/-- Every evaluation keeps the rule of R83. -/
theorem relaySafe_writeZone (s : State) (z : Nat) (e : ZoneEvent) (h : s.relaySafe) :
    (s.writeZone z (s.zoneStages z e)).relaySafe := by
  intro y hy
  rw [zoneRec_writeZone] at hy ⊢
  rw [latched_writeZone]
  have hrun : (s.writeZone z (s.zoneStages z e)).running = s.running := by
    unfold State.writeZone State.putZone
    dsimp only
    split <;> split <;> split <;> rfl
  rw [hrun]
  by_cases hz : z = y
  · subst hz
    simp only [if_true] at hy ⊢
    exact closed_zoneStages s z e hy
  · rw [if_neg hz] at hy ⊢
    rw [if_neg (Ne.symm hz)]
    exact h y hy

/-- Stage 2 keeps a trip that it begins with. -/
theorem trip_tripStage (s : State) (z : Nat) (r : Zone) (c x : Bool) (t : TripStage) (h : t.trip = .tripped) :
    (s.tripStage z r c x t).trip = .tripped := by
  unfold State.tripStage
  split
  · have h1 : (s.stageExternal z r t).trip = .tripped := by
      unfold State.stageExternal; grind
    have h2 : (r.stageGraceEnd x (s.stageExternal z r t)).trip = .tripped := by
      unfold Zone.stageGraceEnd; grind
    have h3 : (r.stageGas (r.stageGraceEnd x (s.stageExternal z r t))).trip = .tripped := by
      unfold Zone.stageGas; grind
    unfold Zone.stageGraceEntry; grind
  · exact h

/-- The record update of an evaluation that starts from the zone's record and clears nothing. -/
theorem steady_writeZone (s : State) (z : Nat) (e : ZoneEvent) (hs : e.start.conf = (s.zoneRec z).conf)
    (ht : e.start.trip = (s.zoneRec z).trip) (hc : e.clear = false) :
    Steady s (s.writeZone z (s.zoneStages z e)) where
  still := by
    unfold State.writeZone State.putZone
    dsimp only
    split <;> split <;> split <;> rfl
  conf y := by
    rw [zoneRec_writeZone]
    split
    · next h => subst h; rw [conf_zoneStages, hs]
    · exact Eq.refl _
  miners i := by unfold State.writeZone State.putZone; dsimp only; split <;> split <;> split <;> rfl
  vehicles i := by unfold State.writeZone State.putZone; dsimp only; split <;> split <;> split <;> rfl
  refuges i := by unfold State.writeZone State.putZone; dsimp only; split <;> split <;> split <;> rfl
  latches y h := by
    rw [latched_writeZone]
    split
    · next e' =>
      subst e'
      show State.stageLatch s y _ _ _ = true
      unfold State.stageLatch
      split <;> simp [h, hc]
    · exact h
  tripped y h := by
    rw [zoneRec_writeZone]
    split
    · next e' =>
      subst e'
      rw [trip_zoneStages]
      refine trip_tripStage _ _ _ _ _ _ ?_
      show (if e.clear then TripState.normal else _) = _
      rw [hc]
      simp only [Bool.false_eq_true, if_false]
      rw [stageCover_trip, ht, h]
    · exact h
  relay := relaySafe_writeZone s z e
  notice h := by unfold State.writeZone State.putZone; dsimp only; split <;> split <;> split <;> exact h
  alerting h := by unfold State.writeZone State.putZone; dsimp only; split <;> split <;> split <;> exact h
  evacuating h := by unfold State.writeZone State.putZone; dsimp only; split <;> split <;> split <;> exact h
  aborts _ h := by unfold State.writeZone State.putZone; dsimp only; split <;> split <;> split <;> exact h

theorem steady_evaluate (s : State) (z : Nat) (e : ZoneEvent) (hs : e.start.conf = (s.zoneRec z).conf)
    (ht : e.start.trip = (s.zoneRec z).trip) (hc : e.clear = false) : Steady s (s.evaluate z e) :=
  (steady_writeZone s z e hs ht hc).trans (steady_evaluate_written s z e)

theorem steady_evalZone (s : State) (z : Nat) : Steady s (s.evalZone z) := by
  unfold State.evalZone
  exact .ite (steady_evaluate _ _ _ rfl rfl rfl) .rfl

theorem steady_evalZoneOpt (s : State) (z : Option Nat) : Steady s (s.evalZone? z) := by
  cases z
  · exact .rfl
  · exact steady_evalZone _ _

theorem steady_evalZones (s : State) (l : List Nat) : Steady s (s.evalZones l) :=
  Steady.forEach (fun z s => steady_evalZone s z) _ _

theorem steady_evalAllZones (s : State) : Steady s s.evalAllZones :=
  Steady.forEach (fun z s => steady_evalZone s z) _ _

theorem steady_giveOverlay (s : State) (o : Overlay) : Steady s (s.giveOverlay o) := by
  unfold State.giveOverlay
  exact .ite .rfl (.after (steady_evalAllZones _) (.of_eq rfl rfl rfl rfl rfl rfl rfl id fun _ => id))

/-! ### The Route Unit -/

theorem place_judged (s : State) (r : Refuge) : (s.judged r).place = r.place := rfl

theorem steady_noteRefuge (s : State) (i : Nat) : Steady s (s.noteRefuge i) := by
  unfold State.noteRefuge
  exact .ite .rfl (.of_eq rfl rfl rfl rfl rfl rfl rfl id fun _ => id)

theorem refuge_noteRefuge (s : State) (i j : Nat) : (s.noteRefuge i).refuge? j = s.refuge? j := by
  unfold State.noteRefuge; split <;> rfl

/-- A refuge's change of judged fields alone. -/
theorem steady_changeRefuge (s : State) (i : Nat) (r : Refuge) (p : Bool)
    (h : (s.refuge? i).map Refuge.place = some r.place) : Steady s (s.changeRefuge i r p) := by
  unfold State.changeRefuge
  have h1 : Steady s ((s.noteRefuge i).putRefuge i r) :=
    (steady_noteRefuge s i).trans (steady_putRefuge _ i r (by rw [refuge_noteRefuge]; exact h))
  exact .ite (.after (steady_append _ _ _ _ _ _) (.after (steady_handEvac _ _) h1)) h1

/-- The judgements of a refuge at the end of the event's own work. -/
theorem steady_judgeRefuge (s : State) (i : Nat) (old : Option Refuge) : Steady s (s.judgeRefuge i old) := by
  unfold State.judgeRefuge
  split
  · exact .rfl
  · next b h =>
    refine .after (steady_appendIf _ _ _ _ _ _ _) (.after (steady_appendIf _ _ _ _ _ _ _)
      (.after (steady_appendIf _ _ _ _ _ _ _) (.after (.ite .rfl (steady_askRecompute _))
        (.after (steady_raiseOnceIf _ _ _ _) (steady_putRefuge s i _ ?_)))))
    rw [h, place_judged]
    rfl

theorem steady_judgeRefuges (s : State) (p : Refuge → Bool) : Steady s (s.judgeRefuges p) := by
  refine Steady.forEach (fun i s => ?_) _ _
  split
  · exact .ite (steady_noteRefuge s i) .rfl
  · exact .rfl

theorem steady_recountRefuges (s : State) : Steady s s.recountRefuges := steady_judgeRefuges _ _

theorem steady_assertEvacuate (s : State) (i : Nat) (m : Miner) : Steady s (s.assertEvacuate i m) :=
  steady_assertCond _ _ _ _ _ _

theorem steady_replaceEvacuate (s : State) (l : List Nat) : Steady s (s.replaceEvacuate l) :=
  Steady.foldl (fun s (p : Nat × Miner) => steady_assertEvacuate s p.1 p.2) _ _

theorem steady_nextGeneration (s : State) : Steady s s.nextGeneration := .of_eq rfl rfl rfl rfl rfl rfl rfl id fun _ => id

theorem steady_recompute (s : State) : Steady s s.recompute := by
  unfold State.recompute
  refine .after (steady_append _ _ _ _ _ _) (.after (steady_raise _ _) (.after (steady_replaceEvacuate _ _)
    (.after (steady_bumpSummary _) ?_)))
  refine .after (steady_nextGeneration _) (.after (Steady.foldl (fun s (p : Nat × Escape) => steady_putEscape s p.1 p.2) _ _) ?_)
  exact .of_eq rfl rfl rfl rfl rfl rfl rfl id fun _ => id

theorem steady_recomputeNow (s : State) : Steady s s.recomputeNow := by
  unfold State.recomputeNow; exact .ite (steady_recompute s) .rfl

end Sys2Proof.Machine
end

