-- ==== Sys2Proof/Laws/SteadyEvac.lean ====
section
/-! SUPPORT. The evacuation machine's operations are steady: they keep what `Steady` says. -/

namespace Sys2Proof.Machine

open Sys2Proof.Config

theorem steady_formCounts (s : State) : Steady s s.formCounts := by
  unfold State.formCounts
  exact .ite .rfl (.after (steady_bumpSummary _) (.of_eq rfl rfl rfl rfl rfl rfl rfl id fun _ => id))

/-- A change of the machine state that does not leave ALERTING. -/
theorem steady_setEvac (s : State) (st : EvacState) (h : s.evac.state ≠ .alerting) : Steady s (s.setEvac st) := by
  unfold State.setEvac
  refine .ite .rfl (.after (steady_bumpSummary _) ?_)
  exact { Steady.rfl (s := s) with
    still := rfl, alerting := fun k => absurd k h, relay := relaySafe_of_eq rfl rfl rfl, notice := id }

theorem steady_judgeMuster (s : State) : Steady s s.judgeMuster := by
  unfold State.judgeMuster
  split
  · next h => exact .ite (steady_setEvac s _ (by rw [h]; decide)) .rfl
  · next h => exact .ite (steady_setEvac s _ (by rw [h]; decide)) .rfl
  · next h => exact .ite .rfl (steady_setEvac s _ (by rw [h]; decide))
  all_goals exact .rfl

theorem steady_logEvacState (s0 s : State) : Steady s (State.logEvacState s0 s) := by
  unfold State.logEvacState
  exact .after (steady_appendIf _ _ _ _ _ _ _) (steady_appendIf _ _ _ _ _ _ _)

theorem steady_raiseEvac (s0 s : State) (b : Bool) : Steady s (State.raiseEvac s0 s b) := steady_raiseOnceIf _ _ _ _

theorem steady_judgeEvacuate (s : State) (i : Nat) : Steady s (s.judgeEvacuate i) := by
  unfold State.judgeEvacuate
  split
  · exact .ite (steady_assertEvacuate _ _ _) (steady_endCond _ _ _)
  · exact .rfl

theorem musterAfter_place (s : State) (m : Miner) : (s.musterAfter m).place = m.place := by
  unfold State.musterAfter
  dsimp only
  split <;> first | rfl | (split <;> first | rfl | (split <;> rfl))

theorem steady_musterReport (s : State) (i : Nat) (moved help : Bool) : Steady s (State.musterReport s i moved help) := by
  unfold State.musterReport
  refine .ite ?_ .rfl
  split
  · next m h =>
    refine .after (steady_appendIf _ _ _ _ _ _ _) (.after (steady_logEvacState _ _) (.after (steady_raiseEvac _ _ _)
      (.after (steady_judgeMuster _) (.after (steady_formCounts _) (.after (steady_judgeEvacuate _ _)
        (steady_putMuster s i _ ?_))))))
    rw [h]
    have : (if moved = true then s.musterAfter m else m).place = m.place := by
      split
      · exact musterAfter_place s m
      · rfl
    show some m.place = some _
    rw [← this]
    congr 1
    generalize (if moved = true then s.musterAfter m else m) = x
    split <;> rfl
  · exact .after (steady_logEvacState _ _) (.after (steady_raiseEvac _ _ _) (.after (steady_judgeMuster _) (steady_formCounts s)))

theorem steady_giveFlags (s : State) : Steady s s.giveFlags := by
  unfold State.giveFlags
  exact .after (steady_giveVehicleFlag _ _) (steady_giveOverlay _ _)

/-- A change of every roster entry that keeps the places. -/
theorem steady_eachMiner (f : Miner → Miner) (hf : ∀ m, (f m).place = m.place) (l : List Nat) (s : State) :
    Steady s (forEach l (fun i s => match s.miner? i with
      | some m => s.putMuster i (f m)
      | none => s) s) := by
  refine Steady.forEach (fun i s => ?_) _ _
  split
  · next m h => exact steady_putMuster s i _ (by rw [h, hf]; rfl)
  · exact .rfl

/-- The fields that the entry to ALERTING sets at once (R157, step 1). -/
theorem steady_alertingFields (s : State) (drill : Bool) :
    Steady s { s with
      evac :=
        { s.evac with
          state := .alerting, drill := drill, askingZone := none, askTimer := none
          deadline := some ⟨s.now, s.supply.policy.musterDeadline * 60000⟩
          deadlinePassed := false, roundAtEntry := s.loop.round.isSome, roundEnds := 0 }
      supply.retained.evacActive := true
      supply.retained.drill := drill } :=
  { Steady.rfl (s := s) with
    still := rfl, alerting := fun _ => rfl, relay := relaySafe_of_eq rfl rfl rfl, notice := id, evacuating := fun _ => rfl }

theorem steady_enterAlerting (s : State) (drill : Bool) : Steady s (State.enterAlerting s drill) := by
  unfold State.enterAlerting
  refine .after (steady_logEvacState _ _) (.after (steady_raiseOnce _ _ _) (.after (steady_giveFlags _) (.after (steady_formCounts _)
    (.after (Steady.forEach (fun i s => steady_judgeEvacuate s i) _ _) ?_))))
  refine .after (steady_eachMiner Miner.setup (fun _ => rfl) _ _) (.after (steady_bumpSummary _) ?_)
  exact steady_alertingFields s drill

theorem steady_enterAsking (s : State) (z : Nat) (h : s.evac.state ≠ .alerting) : Steady s (State.enterAsking s z) := by
  unfold State.enterAsking
  refine .after (steady_logEvacState _ _) (.after (steady_raiseOnce _ _ _) (.after (steady_giveFlags _)
    (.after (steady_bumpSummary _) ?_)))
  exact { Steady.rfl (s := s) with
    still := rfl, alerting := fun k => absurd k h, relay := relaySafe_of_eq rfl rfl rfl, notice := id }

theorem steady_convertDrill (s : State) (source : Nat) : Steady s (State.convertDrill s source) := by
  unfold State.convertDrill
  refine .after (steady_raiseOnce _ _ _) (.after (steady_giveFlags _) (.after (Steady.forEach (fun i s => ?_) _ _)
    (.after (steady_append _ _ _ _ _ _) (.after (steady_bumpSummary _) ?_))))
  · split
    · exact .ite (steady_assertEvacuate _ _ _) .rfl
    · exact .rfl
  · exact { Steady.rfl (s := s) with still := rfl, alerting := id, relay := relaySafe_of_eq rfl rfl rfl, notice := id }

theorem steady_takePull (s : State) (cls index : Nat) : Steady s (s.takePull cls index) := by
  unfold State.takePull
  dsimp only
  refine .ite (steady_append _ _ _ _ _ _) ?_
  split
  · exact .after (steady_enterAlerting _ _) (steady_append _ _ _ _ _ _)
  · exact .after (steady_enterAlerting _ _) (steady_append _ _ _ _ _ _)
  all_goals exact .ite (.after (steady_convertDrill _ _) (steady_append _ _ _ _ _ _)) (steady_append _ _ _ _ _ _)

theorem steady_takeGas (s : State) (z : Nat) : Steady s (s.takeGas z) := by
  unfold State.takeGas
  dsimp only
  refine .ite (steady_append _ _ _ _ _ _) (.ite (steady_append _ _ _ _ _ _) ?_)
  split
  · next h =>
    split
    · exact steady_append _ _ _ _ _ _
    · exact .after (steady_enterAlerting _ _) (steady_append _ _ _ _ _ _)
    · exact .after (steady_enterAsking _ _ (by rw [State.append_evac, h]; decide)) (steady_append _ _ _ _ _ _)
  · exact .after (steady_enterAlerting _ _) (steady_append _ _ _ _ _ _)
  all_goals exact .ite (.after (steady_convertDrill _ _) (steady_append _ _ _ _ _ _)) (steady_append _ _ _ _ _ _)

/-- Whatever hand-off the Evacuation Unit takes, it is steady. -/
theorem steady_takeTask (s : State) (t : EvacTask) : Steady s (s.takeTask t) := by
  cases t
  · exact steady_takePull _ _ _
  · exact steady_takeGas _ _
  · exact .of_eq rfl rfl rfl rfl rfl rfl rfl id fun _ => id
  · exact steady_musterReport _ _ _ _

/-! ### The People Unit's counts and conditions -/

theorem steady_countOccupants (s : State) (z : Nat) : Steady s (s.countOccupants z) := by
  unfold State.countOccupants
  exact .ite (steady_putZoneAs s _ z _ rfl rfl rfl rfl) .rfl

theorem steady_judgeWithdraw (s : State) (i : Nat) (b a : Option Miner) : Steady s (s.judgeWithdraw i b a) := by
  unfold State.judgeWithdraw
  dsimp only
  refine .ite .rfl ?_
  split
  · exact .after (steady_assertCond _ _ _ _ _ _) (steady_endCond _ _ _)
  · exact steady_endCond _ _ _

theorem steady_logMinerSide (s : State) (i : Nat) (b a : Option Miner) : Steady s (s.logMinerSide i b a) := by
  unfold State.logMinerSide
  exact .ite ((steady_append _ _ _ _ _ _).trans (steady_append _ _ _ _ _ _)) (steady_appendIf _ _ _ _ _ _ _)

theorem steady_logBattery (s : State) (i : Nat) (b a : Option Miner) : Steady s (s.logBattery i b a) := by
  unfold State.logBattery
  split
  · exact steady_appendIf _ _ _ _ _ _ _
  · exact .rfl

end Sys2Proof.Machine
end

