-- ==== Sys2Proof/Laws/Settles.lean ====
section
/-! SUPPORT. What the ends of tests, the end reports of long orders and the finishing of an event leave alone (`Settles`),
operation by operation. -/

namespace Sys2Proof.Machine

open Sys2Proof.Config

/-- What finishing an event keeps while no check bit is at fault: everything that `keptPart` shows, configurations, places and
trips, and every slot that no in-flight entry holds. -/
structure Kept (s t : State) : Prop where
  still : t.keptPart = s.keptPart
  conf : ∀ z, (t.zoneRec z).conf = (s.zoneRec z).conf
  miners : ∀ i, (t.miner? i).map Miner.place = (s.miner? i).map Miner.place
  vehicles : ∀ i, (t.vehicle? i).map Vehicle.place = (s.vehicle? i).map Vehicle.place
  refuges : ∀ i, (t.refuge? i).map Refuge.place = (s.refuge? i).map Refuge.place
  channels : ∀ i, (t.channel? i).map Channel.conf = (s.channel? i).map Channel.conf
  tripped : ∀ z, (s.zoneRec z).trip = .tripped → (t.zoneRec z).trip = .tripped
  alerting : s.evac.state = .alerting → t.evac.state = .alerting
  evacuating : s.supply.retained.evacActive = true → t.supply.retained.evacActive = true
  slots : ∀ n, (∀ e ∈ s.orders.inFlight, e.slot ≠ n) → sameSlot s t n

/-- What finishing an event keeps in any case, and `Kept` while no check bit is at fault. -/
structure Settles (s t : State) : Prop where
  board : s.boardCanonical → t.boardCanonical
  notice : s.noticeLegal → t.noticeLegal
  relay : s.relaySafe → t.relaySafe
  latches : ∀ z, s.latched z = true → t.latched z = true
  flights : t.orders.inFlight.Sublist s.orders.inFlight
  pending : t.pending = s.pending
  kept : s.port.badBytes = [] → Kept s t

theorem Kept.badBytes {s t : State} (h : Kept s t) : t.port.badBytes = s.port.badBytes := by
  have k := congrArg (fun u : State => u.port.badBytes) h.still
  exact k

theorem Kept.trans {s t u : State} (h : Kept s t) (k : Kept t u) (hf : t.orders.inFlight.Sublist s.orders.inFlight) :
    Kept s u where
  still := k.still.trans h.still
  conf z := (k.conf z).trans (h.conf z)
  miners i := (k.miners i).trans (h.miners i)
  vehicles i := (k.vehicles i).trans (h.vehicles i)
  refuges i := (k.refuges i).trans (h.refuges i)
  channels i := (k.channels i).trans (h.channels i)
  tripped z := k.tripped z ∘ h.tripped z
  alerting := k.alerting ∘ h.alerting
  evacuating := k.evacuating ∘ h.evacuating
  slots n hn off ho :=
    (k.slots n (fun e he => hn e (hf.subset he)) off ho).trans (h.slots n hn off ho)

theorem Settles.trans {s t u : State} (h : Settles s t) (k : Settles t u) : Settles s u where
  board := k.board ∘ h.board
  notice := k.notice ∘ h.notice
  relay := k.relay ∘ h.relay
  latches z := k.latches z ∘ h.latches z
  flights := k.flights.trans h.flights
  pending := k.pending.trans h.pending
  kept hb := (h.kept hb).trans (k.kept ((h.kept hb).badBytes.trans hb)) h.flights

theorem Settles.after {s t u : State} (k : Settles t u) (h : Settles s t) : Settles s u := h.trans k

theorem Steady.kept {s t : State} (h : Steady s t) : Kept s t where
  still := congrArg (fun u : State =>
    ({ u with
      port.board := [], orders.inFlight := [], air := { channels := [], windows := [] }
      tests := { bumps := [], cals := [], checks := [], recoveries := [] }
      work := Work.none } : State)) h.still
  conf := h.conf
  miners := h.miners
  vehicles := h.vehicles
  refuges := h.refuges
  channels i := by
    have : t.air = s.air := by
      have k := congrArg (fun u : State => u.air) h.still
      exact k
    simp [State.channel?, this]
  tripped := h.tripped
  alerting := h.alerting
  evacuating := h.evacuating
  slots n _ off _ := by
    have : t.port.board = s.port.board := by
      have k := congrArg (fun u : State => u.port.board) h.still
      exact k
    simp [State.slotByte, this]

theorem Steady.settles {s t : State} (h : Steady s t) : Settles s t where
  board hb := by
    have : t.port.board = s.port.board := by
      have k := congrArg (fun u : State => u.port.board) h.still
      exact k
    simpa [State.boardCanonical, this] using hb
  notice := h.notice
  relay := h.relay
  latches := h.latches
  flights := by
    have : t.orders = s.orders := by
      have k := congrArg (fun u : State => u.orders) h.still
      exact k
    simp only [this, List.Sublist.refl]
  pending := by
      have k := congrArg (fun u : State => u.pending) h.still
      exact k
  kept _ := h.kept

theorem Settles.rfl {s : State} : Settles s s := Steady.rfl.settles

theorem Settles.foldl {α : Type} {f : State → α → State} (hf : ∀ s a, Settles s (f s a)) :
    ∀ (l : List α) (s : State), Settles s (l.foldl f s)
  | [], _ => .rfl
  | a :: l, s => (hf s a).trans (Settles.foldl hf l (f s a))

theorem Settles.forEach {f : Nat → State → State} (hf : ∀ i s, Settles s (f i s)) (l : List Nat) (s : State) :
    Settles s (forEach l f s) := Settles.foldl (fun s i => hf i s) l s

theorem Settles.ite {s t u : State} {c : Prop} [Decidable c] (ht : Settles s t) (hu : Settles s u) :
    Settles s (if c then t else u) := by split <;> assumption

/-- A change of the Air Evaluator's and Test Unit's tables that keeps every channel's configuration. -/
theorem Settles.of_air {s t : State} (still : t.keptPart = s.keptPart) (port : t.port = s.port) (orders : t.orders = s.orders)
    (zones : t.zone.zones = s.zone.zones) (roster : t.people.roster = s.people.roster)
    (vehicles : t.haul.vehicles = s.haul.vehicles) (refuges : t.route.refuges = s.route.refuges)
    (retained : t.supply.retained = s.supply.retained) (evac : t.evac.state = s.evac.state)
    (channels : ∀ i, (t.channel? i).map Channel.conf = (s.channel? i).map Channel.conf) : Settles s t where
  board h := by simpa [State.boardCanonical, port] using h
  notice h := by simpa [State.noticeLegal, port] using h
  relay h := by
    have k := congrArg (fun u : State => u.supply.phase) still
    exact relaySafe_of_eq zones k (by rw [retained]) h
  latches z h := by simpa [State.latched, retained] using h
  flights := by simp only [orders, List.Sublist.refl]
  pending := by
      have k := congrArg (fun u : State => u.pending) still
      exact k
  kept _ :=
    { still := still
      conf := fun z => by simp [State.zoneRec, zones]
      miners := fun i => by simp [State.miner?, roster]
      vehicles := fun i => by simp [State.vehicle?, vehicles]
      refuges := fun i => by simp [State.refuge?, refuges]
      channels := channels
      tripped := fun z h => by simpa [State.zoneRec, zones] using h
      alerting := fun h => by rw [evac]; exact h
      evacuating := fun h => by rw [retained]; exact h
      slots := fun n _ off _ => by simp [State.slotByte, port] }

/-! ### Channels -/

theorem channel_putChannel (s : State) (i j : Nat) (c : Channel) :
    (s.putChannel i c).channel? j = if i = j then some c else s.channel? j := by
  unfold State.putChannel
  split
  · next h => by_cases hj : i = j <;> simp [hj]; subst hj; exact h
  · show lookupAt (storeAt s.air.channels i c) j = _
    rw [lookupAt_storeAt]; rfl

theorem settles_putChannel (s : State) (i : Nat) (c : Channel) (h : (s.channel? i).map Channel.conf = some c.conf) :
    Settles s (s.putChannel i c) := by
  have hc : ∀ j, ((s.putChannel i c).channel? j).map Channel.conf = (s.channel? j).map Channel.conf := by
    intro j
    rw [channel_putChannel]
    split
    · next e => subst e; exact h.symm
    · exact Eq.refl _
  have hs : Settles s { s with air.channels := storeAt s.air.channels i c } := by
    refine .of_air rfl rfl rfl rfl rfl rfl rfl rfl rfl fun j => ?_
    show (lookupAt (storeAt s.air.channels i c) j).map _ = _
    rw [lookupAt_storeAt]
    split
    · next e => subst e; exact h.symm
    · exact Eq.refl _
  unfold State.putChannel
  exact .ite .rfl (.after (steady_bump _ _).settles hs)

theorem settles_putWindow (s : State) (i : Nat) (w : List Nat) : Settles s (s.putWindow i w) :=
  .of_air rfl rfl rfl rfl rfl rfl rfl rfl rfl fun _ => rfl

theorem steady_reportChannel (s : State) (i : Nat) (zs : List Nat) : Steady s (s.reportChannel i zs) :=
  .after (steady_judgeRefuges _ _) (steady_evalZones _ _)

/-- A channel's record update keeps what `Settles` says when it keeps the channel's configuration. -/
theorem settles_commitChannel (s : State) (i : Nat) (old : Channel) (x : Cell)
    (h : (s.channel? i).map Channel.conf = some x.chan.conf) : Settles s (s.commitChannel i old x) := by
  unfold State.commitChannel
  have h1 : Settles s ((s.putWindow i x.win).putChannel i
      (if (!decide (old.state = x.chan.state) || !decide (old.cause = x.chan.cause) || !decide (old.level = x.chan.level)
          || !decide (old.overRange = x.chan.overRange)) = true then { x.chan with changed := s.stamp } else x.chan)) := by
    refine .after (settles_putChannel _ _ _ ?_) (settles_putWindow s i x.win)
    refine Eq.trans h ?_
    congr 1
    split <;> rfl
  refine .trans h1 ?_
  refine Steady.settles (.ite (.after (steady_reportChannel _ _ _) ?_) ?_) <;>
  exact .after (steady_appendIf _ _ _ _ _ _ _) (.after (steady_appendIf _ _ _ _ _ _ _)
    (.after (steady_appendIf _ _ _ _ _ _ _) (steady_raiseOnceIf _ _ _ _)))

theorem channel_of_cell {s : State} {i : Nat} {x : Cell} (h : s.cell? i = some x) : s.channel? i = some x.chan := by
  unfold State.cell? at h
  cases hc : s.channel? i with
  | none => simp [hc] at h
  | some c => simp [hc] at h; rw [← h]

theorem settles_changeChannel (s : State) (i : Nat) (f : Cell → Cell) (hf : ∀ x, (f x).chan.conf = x.chan.conf) :
    Settles s (s.changeChannel i f) := by
  unfold State.changeChannel
  split
  · next x h => exact settles_commitChannel _ _ _ _ (by rw [channel_of_cell h, hf]; rfl)
  · exact .rfl

theorem settles_moveChannel (s : State) (i : Nat) (f : Cell → Cell) (hf : ∀ x, (f x).chan.conf = x.chan.conf) :
    Settles s (s.moveChannel i f) := by
  unfold State.moveChannel
  split
  · next x h =>
    have h1 := settles_commitChannel s i x.chan (f x) (by rw [channel_of_cell h, hf]; rfl)
    exact .ite h1 (.after (steady_reportChannel _ _ _).settles h1)
  · exact .rfl

theorem conf_emptied (x : Cell) : x.emptied.chan.conf = x.chan.conf := rfl
theorem conf_faulted (x : Cell) (c : FaultCause) : (x.faulted c).chan.conf = x.chan.conf := rfl
theorem conf_entering (x : Cell) (c : ChannelState) : (x.entering c).chan.conf = x.chan.conf := rfl
theorem conf_evaluated (x : Cell) : x.evaluated.chan.conf = x.chan.conf := rfl
theorem conf_shown (x : Cell) (r : Nat) : (x.shown r).chan.conf = x.chan.conf := rfl
theorem conf_served (x : Cell) (r : Nat) : (x.served r).chan.conf = x.chan.conf := by
  unfold Cell.served; split <;> rfl

theorem conf_returned (s : State) (x : Cell) : (s.returned x).chan.conf = x.chan.conf := by
  unfold State.returned; split <;> rfl

theorem conf_linkLost (x : Cell) : x.linkLost.chan.conf = x.chan.conf := by
  unfold Cell.linkLost
  split <;> first | rfl | (split <;> rfl)

theorem settles_airLeaves (s : State) (is : List Nat) : Settles s (s.airLeaves is) :=
  Settles.forEach (fun i s => settles_changeChannel s i _ conf_linkLost) _ _

/-- Every reading keeps a channel's configuration. -/
theorem conf_read (x : Cell) (r : RawReading) : (x.read r).1.chan.conf = x.chan.conf := by
  unfold Cell.read
  dsimp only
  split
  · split
    · exact conf_served _ _
    · rfl
  · split
    · exact conf_served _ _
    · rfl
  · unfold Cell.readFault
    split
    all_goals first
      | rfl
      | (split <;> first
          | rfl
          | exact conf_served _ _
          | (split <;> first | rfl | exact conf_served _ _))
  all_goals first | rfl | (split <;> rfl)

/-! ### The end report of a long order -/

theorem slot_apart {n m off k len : Nat} (h : n ≠ m) (ho : off < slotSize) (hk : k + len ≤ slotSize) :
    slotAddr n off < slotAddr m k ∨ slotAddr m k + len ≤ slotAddr n off := by
  unfold slotAddr
  simp only [slotSize, boardBase] at *
  omega

/-- Bytes written in another slot leave a slot as it is. -/
theorem slotByte_writeSlot_other (s : State) {n m off k : Nat} (bs : List Byte) (h : n ≠ m) (ho : off < slotSize)
    (hk : k + bs.length ≤ slotSize) : (s.writeSlot m k bs).slotByte n off = s.slotByte n off :=
  readMem_writeBytes_other _ _ _ _ (slot_apart h ho hk)

theorem boardCanonical_writeSlot {s : State} (n k : Nat) (bs : List Byte) (h : s.boardCanonical) :
    (s.writeSlot n k bs).boardCanonical := Memory.wf_writeBytes _ _ h

theorem length_resultBytes (vals : List Byte) : (resultBytes vals).length = 8 := by simp [resultBytes]

theorem writeSlot_keptPart (s : State) (n k : Nat) (bs : List Byte) (h : s.port.badBytes = []) :
    (s.writeSlot n k bs).keptPart = s.keptPart := by
  unfold State.writeSlot State.keptPart State.steadyPart
  simp [h]

theorem writeSlot_badBytes (s : State) (n k : Nat) (bs : List Byte) (h : s.port.badBytes = []) :
    (s.writeSlot n k bs).port.badBytes = [] := by
  unfold State.writeSlot; simp [h]

/-- Bytes written in a slot that an in-flight entry holds. -/
theorem settles_writeSlot (s : State) (n k : Nat) (bs : List Byte) (hk : k + bs.length ≤ slotSize)
    (hn : ∃ e ∈ s.orders.inFlight, e.slot = n) : Settles s (s.writeSlot n k bs) where
  board := boardCanonical_writeSlot n k bs
  notice := id
  relay := relaySafe_of_eq rfl rfl rfl
  latches _ := id
  flights := List.Sublist.refl _
  pending := rfl
  kept hb :=
    { still := writeSlot_keptPart s n k bs hb
      conf := fun _ => rfl, miners := fun _ => rfl, vehicles := fun _ => rfl, refuges := fun _ => rfl
      channels := fun _ => rfl, tripped := fun _ => id, alerting := id, evacuating := id
      slots := fun m hm off ho => by
        obtain ⟨e, he, rfl⟩ := hn
        exact slotByte_writeSlot_other s bs (fun h => hm e he h.symm) ho hk }

theorem settles_writeDone (s : State) (n : Nat) (r : OrderResult) (q : Nat) (vals : List Byte)
    (hn : ∃ e ∈ s.orders.inFlight, e.slot = n) : Settles s (s.writeDone n r q vals) := by
  unfold State.writeDone
  refine .after (steady_raise _ _).settles ?_
  refine .after (settles_writeSlot _ n 0 _ (by simp [slotSize]) hn) ?_
  refine .after (settles_writeSlot _ n 56 _ (by rw [length_resultBytes]; decide) hn) ?_
  exact settles_writeSlot s n 4 _ (by simp [slotSize]) hn

/-- The list's record updates, without the list. -/
theorem settles_dropFlights (s : State) (p : InFlight → Bool) :
    Settles s (s.putInFlight (s.orders.inFlight.filter p)) := by
  unfold State.putInFlight
  refine .after (steady_bumpSummary _).settles (.after (steady_bumpPositions _ _ _ _ _ _).settles ?_)
  exact
    { board := id, notice := id, relay := relaySafe_of_eq rfl rfl rfl, latches := fun _ => id
      flights := List.filter_sublist, pending := rfl
      kept := fun _ =>
        { still := rfl, conf := fun _ => rfl, miners := fun _ => rfl, vehicles := fun _ => rfl, refuges := fun _ => rfl
          channels := fun _ => rfl, tripped := fun _ => id, alerting := id, evacuating := id
          slots := fun _ _ _ _ => rfl } }

/-! ### The entry to HALTED -/

theorem closed_openRelay (s : State) (z y : Nat) :
    ((s.openRelay z).zoneRec y).closed = (!decide (y = z) && (s.zoneRec y).closed) := by
  unfold State.openRelay
  dsimp only
  split
  · rw [zoneRec_putZone]
    split
    · next h => simp [h]
    · next h => simp [Ne.symm h]
  · next h =>
    by_cases e : y = z
    · subst e; simpa using h
    · simp [e]

/-- The relay commands after the updates of the entry to HALTED (R89). -/
theorem closed_eachRelay (l : List Nat) (s : State) (y : Nat) :
    ((forEach l (fun z s => s.openRelay z) s).zoneRec y).closed = (!l.contains y && (s.zoneRec y).closed) := by
  induction l generalizing s with
  | nil => simp [forEach]
  | cons z l ih =>
    unfold forEach at ih ⊢
    rw [List.foldl_cons, ih, closed_openRelay]
    simp only [List.contains_cons, Bool.not_or]
    cases l.contains y <;> by_cases e : y = z <;> simp [e]

theorem lookupAt_of_not_key {α : Type} : ∀ (t : Tbl α) (i : Nat), (keysOf t).contains i = false → lookupAt t i = none
  | [], _, _ => rfl
  | (k, a) :: t, i, h => by
    simp only [keysOf, List.map_cons, List.contains_cons, Bool.or_eq_false_iff] at h
    rw [lookupAt, if_neg (by intro e; subst e; simp at h)]
    exact lookupAt_of_not_key t i h.2

/-- Every relay command is OPEN after the entry to HALTED's updates (R89). -/
theorem closed_openRelays (s : State) (y : Nat) : (s.openRelays.zoneRec y).closed = false := by
  unfold State.openRelays
  rw [closed_eachRelay]
  cases h : (keysOf s.zone.zones).contains y with
  | true => rfl
  | false =>
    unfold State.zoneRec
    rw [lookupAt_of_not_key _ _ h]
    rfl

/-- What the entry to HALTED's updates keep: all but zones, and everything of zones but relay commands and change times. -/
theorem steady_openRelay (s : State) (z : Nat) : (s.openRelay z).steadyPart = s.steadyPart
    ∧ (s.openRelay z).supply = s.supply ∧ (s.openRelay z).port.notice = s.port.notice := by
  unfold State.openRelay State.putZone
  dsimp only
  split
  · split <;> exact ⟨rfl, rfl, rfl⟩
  · exact ⟨rfl, rfl, rfl⟩

theorem openRelays_frame (s : State) : s.openRelays.steadyPart = s.steadyPart
    ∧ s.openRelays.supply = s.supply ∧ s.openRelays.port.notice = s.port.notice := by
  have h : ∀ (l : List Nat) (s : State), (forEach l (fun z s => s.openRelay z) s).steadyPart = s.steadyPart
      ∧ (forEach l (fun z s => s.openRelay z) s).supply = s.supply
      ∧ (forEach l (fun z s => s.openRelay z) s).port.notice = s.port.notice := by
    intro l
    induction l with
    | nil => intro s; exact ⟨rfl, rfl, rfl⟩
    | cons z l ih =>
      intro s
      have k := steady_openRelay s z
      have j := ih (s.openRelay z)
      exact ⟨j.1.trans k.1, j.2.1.trans k.2.1, j.2.2.trans k.2.2⟩
  exact h _ _

theorem Steady.board {s t : State} (h : Steady s t) : t.port.board = s.port.board := by
  have k := congrArg (fun u : State => u.port.board) h.still
  exact k

theorem Steady.orders {s t : State} (h : Steady s t) : t.orders = s.orders := by
  have k := congrArg (fun u : State => u.orders) h.still
  exact k

theorem Steady.pending {s t : State} (h : Steady s t) : t.pending = s.pending := by
  have k := congrArg (fun u : State => u.pending) h.still
  exact k

/-- The fields of a state that the entry to HALTED keeps or that its invariants follow. -/
structure HaltFrame (s t : State) : Prop where
  board : t.port.board = s.port.board
  inFlight : t.orders.inFlight = s.orders.inFlight
  pending : t.pending = s.pending
  notice : s.noticeLegal → t.noticeLegal
  latches : ∀ z, s.latched z = true → t.latched z = true

theorem HaltFrame.trans {s t u : State} (h : HaltFrame s t) (k : HaltFrame t u) : HaltFrame s u :=
  ⟨k.board.trans h.board, k.inFlight.trans h.inFlight, k.pending.trans h.pending, k.notice ∘ h.notice,
    fun z => k.latches z ∘ h.latches z⟩

theorem Steady.haltFrame {s t : State} (h : Steady s t) : HaltFrame s t :=
  ⟨h.board, by rw [h.orders], h.pending, h.notice, h.latches⟩

theorem haltFrame_openRelays (s : State) : HaltFrame s s.openRelays := by
  obtain ⟨h, hs, hn⟩ := openRelays_frame s
  have he := congrArg (fun u : State => u.port.enable) h
  have hb := congrArg (fun u : State => u.port.board) h
  have ho := congrArg (fun u : State => u.orders) h
  have hp := congrArg (fun u : State => u.pending) h
  dsimp only [State.steadyPart] at he hb ho hp
  refine ⟨hb, by rw [ho], hp, ?_, ?_⟩
  · intro k; simpa [State.noticeLegal, hn, he] using k
  · intro z k; simpa [State.latched, hs] using k

theorem haltFrame_halt (s : State) (c : FatalCode) : HaltFrame s (s.halt c) := by
  unfold State.halt
  dsimp only
  split
  · have h1 : HaltFrame s (s.haltPhase c) := ⟨rfl, rfl, rfl, id, fun _ => id⟩
    have h2 := h1.trans (steady_append (s.haltPhase c) 0xA1 clsDistrict 0 s.supply.phase.ctorIdx Phase.halted.ctorIdx).haltFrame
    have h3 := (h2.trans (haltFrame_openRelays _)).trans (steady_flush _).haltFrame
    exact h3.trans ⟨rfl, rfl, rfl, id, fun _ => id⟩
  · exact ⟨rfl, rfl, rfl, id, fun _ => id⟩

/-- Every relay command is OPEN in HALTED (R89). -/
theorem closed_halt (s : State) (c : FatalCode) (h : s.active = true) (z : Nat) : ((s.halt c).zoneRec z).closed = false := by
  unfold State.halt
  rw [if_pos h]
  dsimp only
  generalize hu : (s.haltPhase c).append 0xA1 clsDistrict 0 s.supply.phase.ctorIdx Phase.halted.ctorIdx = u
  have k : (u.openRelays.flush.zoneRec z).closed = (u.openRelays.zoneRec z).closed := by
    unfold State.zoneRec State.flush
    have h1 : ∀ (l : List Nat) (s : State), (l.foldl (fun s a => s.bumpNow a) s).zone = s.zone := by
      intro l; induction l with
      | nil => intro _; rfl
      | cons a l ih => intro s; exact ih (s.bumpNow a)
    have h2 : ∀ (l : List News) (s : State), (l.foldl (fun s n => s.appendNow n) s).zone = s.zone := by
      intro l; induction l with
      | nil => intro _; rfl
      | cons n l ih =>
        intro s
        refine (ih (s.appendNow n)).trans ?_
        unfold State.appendNow
        split
        · split <;> rfl
        · rfl
    rw [h2, h1]
  exact k.trans (closed_openRelays u z)

theorem settles_halt (s : State) (c : FatalCode) (hb : s.port.badBytes ≠ []) : Settles s (s.halt c) where
  board h := by
    have k := (haltFrame_halt s c).board
    simpa [State.boardCanonical, k] using h
  notice := (haltFrame_halt s c).notice
  relay h := by
    by_cases ha : s.active = true
    · intro z hz; rw [closed_halt s c ha z] at hz; cases hz
    · have : s.halt c = s := by unfold State.halt; rw [if_neg ha]
      rw [this]; exact h
  latches := (haltFrame_halt s c).latches
  flights := by simp only [(haltFrame_halt s c).inFlight, List.Sublist.refl]
  pending := (haltFrame_halt s c).pending
  kept h := absurd h hb

/-! ### Ends of long orders and tests -/

theorem ne_nil_of_any {l : List Nat} {f : Nat → Nat} {os : List Nat}
    (h : (os.any fun o => l.contains (f o)) = true) : l ≠ [] := by
  rintro rfl; simp at h

theorem settles_endEntry (s : State) (e : InFlight) (r : OrderResult) (q : Nat) (vals : List Byte)
    (he : e ∈ s.orders.inFlight) : Settles s (s.endEntry e r q vals) := by
  unfold State.endEntry
  refine .ite .rfl ?_
  split
  · next h => exact settles_halt s _ (ne_nil_of_any (f := fun o => slotAddr e.slot o) h)
  · refine .after (settles_dropFlights _ _) ?_
    exact .ite (settles_writeDone s _ _ _ _ ⟨e, he, rfl⟩)
      (Steady.settles (.after (steady_append _ _ _ _ _ _) (steady_raise _ _)))

/-- The hand-offs that wait change alone. -/
theorem settles_work (s : State) (w : Work) : Settles s { s with work := w } :=
  .of_air rfl rfl rfl rfl rfl rfl rfl rfl rfl fun _ => rfl

theorem settles_endOrder (s : State) (code : Nat) (t : TargetKind) (i : Nat) (r : OrderResult) (q : Nat)
    (vals : List Byte) : Settles s (s.endOrder code t i r q vals) := settles_work s _

theorem settles_takeEnd (s : State) (x : EndReport) : Settles s (s.takeEnd x) := by
  unfold State.takeEnd
  split
  · next e h => exact settles_endEntry _ _ _ _ _ (List.mem_of_find?_eq_some h)
  · exact .rfl

theorem settles_reportEnd (s : State) (cls : Nat) (t : TargetKind) (i code : Nat) (r : OrderResult) (q : Nat)
    (vals : List Byte) : Settles s (s.reportEnd cls t i code r q vals) :=
  .after (settles_endOrder _ _ _ _ _ _ _) (steady_append _ _ _ _ _ _).settles

/-- The Test Unit's tables change alone. -/
theorem settles_tests (s : State) (x : Tests) : Settles s { s with tests := x } :=
  .of_air rfl rfl rfl rfl rfl rfl rfl rfl rfl fun _ => rfl

theorem settles_endBump (s : State) (i : Nat) (b : BumpRec) (r : OrderResult) (q : Nat) (rise : List Byte) (cause : Nat)
    (after : After) (seen : Cell → Cell) (hs : ∀ x, (seen x).chan.conf = x.chan.conf) :
    Settles s (s.endBump i b r q rise cause after seen) := by
  unfold State.endBump
  refine .after (settles_reportEnd _ _ _ _ _ _ _ _) ?_
  cases after
  · exact .after (settles_moveChannel _ _ _ (fun x => (conf_entering _ _).trans (hs x))) (settles_tests s _)
  · exact .after (settles_moveChannel _ _ _ (fun x => (conf_returned _ _).trans (hs x))) (settles_tests s _)

theorem settles_endCal (s : State) (i : Nat) (c : CalRec) (r : OrderResult) (q : Nat) (low high : List Byte) (cause : Nat)
    (give : Cell → Cell) (hg : ∀ x, (give x).chan.conf = x.chan.conf) :
    Settles s (s.endCal i c r q low high cause give) := by
  unfold State.endCal
  refine .after (settles_reportEnd _ _ _ _ _ _ _ _) (.after (settles_moveChannel _ _ _ ?_) (settles_tests s _))
  intro x
  rw [conf_returned, hg]

theorem settles_endCheck (s : State) (a : Nat) (r : OrderResult) (q : Nat) (vals : List Byte) :
    Settles s (s.endCheck a r q vals) := by
  unfold State.endCheck
  refine .after (settles_reportEnd _ _ _ _ _ _ _ _) (.after (Settles.forEach (fun i s => ?_) _ _) (settles_tests s _))
  split
  · exact .ite (settles_moveChannel _ _ _ (conf_returned _)) .rfl
  · exact .rfl

theorem settles_endRecovery (s : State) (i : Nat) (start : Clock) (k : Nat) (move : State → State)
    (hm : ∀ s, Settles s (move s)) : Settles s (s.endRecovery i start k move) :=
  .after (steady_append _ _ _ _ _ _).settles (.after (hm _) (settles_tests s _))

theorem settles_abortTest (s : State) (t : TestRef) (z : Nat) (k : ChannelKind) : Settles s (s.abortTest t z k) := by
  unfold State.abortTest
  cases t <;> dsimp only <;> split
  · exact settles_endBump _ _ _ _ _ _ _ _ _ (fun _ => rfl)
  · exact .rfl
  · exact settles_endCal _ _ _ _ _ _ _ _ _ (fun _ => rfl)
  · exact .rfl
  · exact settles_endCheck _ _ _ _ _
  · exact .rfl

theorem settles_cancelTest (s : State) (t : TestRef) : Settles s (s.cancelTest t) := by
  unfold State.cancelTest
  cases t <;> dsimp only <;> split
  · exact settles_endBump _ _ _ _ _ _ _ _ _ (fun _ => rfl)
  · exact .rfl
  · exact settles_endCal _ _ _ _ _ _ _ _ _ (fun _ => rfl)
  · exact .rfl
  · exact settles_endCheck _ _ _ _ _
  · exact .rfl

theorem settles_testLeavesHead (s : State) (a : Nat) : Settles s (s.testLeavesHead a) := by
  unfold State.testLeavesHead
  split
  · exact settles_endCheck _ _ _ _ _
  · exact .rfl

theorem settles_testsLeaveChannels (s : State) (is : List Nat) : Settles s (s.testsLeaveChannels is) := by
  refine Settles.forEach (fun i s => ?_) _ _
  split
  · exact settles_endBump _ _ _ _ _ _ _ _ _ (fun _ => rfl)
  · split
    · exact settles_endCal _ _ _ _ _ _ _ _ _ (fun _ => rfl)
    · exact .rfl

/-! ### Finishing an event -/

/-- What a hand-off that an event left waiting is. -/
theorem handOff_cases {s t : State} (h : s.handOff = some t) :
    (∃ x z k rest, s.work.aborts = (x, z, k) :: rest ∧ t = State.abortTest { s with work.aborts := rest } x z k) ∨
    (∃ i old rest, t = State.judgeRefuge { s with work.refuges := rest } i old) ∨
    (∃ i gone rest, t = State.takeMeet { s with work.meets := rest } i gone) ∨
    t = s.recompute ∨
    ∃ x rest, t = State.takeTask { s with work.evac := rest } x := by
  unfold State.handOff at h
  split at h
  · next e => cases h; exact .inl ⟨_, _, _, _, by assumption, rfl⟩
  · cases h; exact .inr (.inl ⟨_, _, _, rfl⟩)
  · cases h; exact .inr (.inr (.inl ⟨_, _, _, rfl⟩))
  · cases h; exact .inr (.inr (.inr (.inl rfl)))
  · cases h; exact .inr (.inr (.inr (.inr ⟨_, _, rfl⟩)))
  · cases h

theorem settles_handOff {s t : State} (h : s.handOff = some t) : Settles s t := by
  rcases handOff_cases h with ⟨x, z, k, rest, -, rfl⟩ | ⟨i, old, rest, rfl⟩ | ⟨i, gone, rest, rfl⟩ | rfl | ⟨x, rest, rfl⟩
  · exact (settles_work s _).trans (settles_abortTest _ _ _ _)
  · exact (settles_work s _).trans (steady_judgeRefuge _ _ _).settles
  · exact (settles_work s _).trans (steady_takeMeet _ _ _).settles
  · exact (steady_recompute s).settles
  · exact (settles_work s _).trans (steady_takeTask _ _).settles

theorem settles_finishIn : ∀ (n : Nat) (s : State), Settles s (State.finishIn n s)
  | 0, _ => .rfl
  | n + 1, s => by
    rw [State.finishIn]
    split
    · split
      · next h => exact (settles_handOff h).trans (settles_finishIn n _)
      · exact .rfl
    · exact .rfl

theorem settles_takeEnds (s : State) : Settles s s.takeEnds := by
  have fold : ∀ (xs : List EndReport) (s : State), Settles s (xs.foldl State.takeEnd s) := by
    intro xs
    induction xs with
    | nil => intro s; exact .rfl
    | cons x xs ih => intro s; exact (settles_takeEnd s x).trans (ih _)
  exact (settles_work s _).trans (fold _ _)

/-- What finishing an event keeps. -/
theorem settles_finish (s : State) : Settles s s.finish :=
  (((settles_finishIn handOffFuel s).trans (settles_takeEnds _)).trans (steady_flush _).settles).trans (settles_work _ _)

/-- With no end report waiting, the Order Unit does nothing at the end of an event. -/
theorem takeEnds_of_none {s : State} (h : s.work.ends = []) : s.takeEnds = s := by
  obtain ⟨_, _, _, _, _, _, _, _, _, _, _, _, ⟨_, _, _, _, _, _, _, _, _, _⟩, _⟩ := s
  simp only at h
  subst h
  rfl

theorem Steady.ends {s t : State} (h : Steady s t) : t.work.ends = s.work.ends := by
  have k := congrArg (fun u : State => u.work.ends) h.still
  exact k

/-- A hand-off while no test is to be aborted. -/
theorem steady_handOff {s t : State} (h : s.handOff = some t) (ha : s.work.aborts = []) : Steady s t := by
  rcases handOff_cases h with ⟨x, z, k, rest, e, rfl⟩ | ⟨i, old, rest, rfl⟩ | ⟨i, gone, rest, rfl⟩ | rfl | ⟨x, rest, rfl⟩
  · rw [ha] at e; cases e
  · exact .after (steady_judgeRefuge _ _ _) (.of_eq rfl rfl rfl rfl rfl rfl rfl id fun _ => id)
  · exact .after (steady_takeMeet _ _ _) (.of_eq rfl rfl rfl rfl rfl rfl rfl id fun _ => id)
  · exact steady_recompute s
  · exact .after (steady_takeTask _ _) (.of_eq rfl rfl rfl rfl rfl rfl rfl id fun _ => id)

/-- While no test is in flight and none is to be aborted, the hand-offs are steady. -/
theorem steady_finishIn : ∀ (n : Nat) (s : State), s.noTests → s.work.aborts = [] → Steady s (State.finishIn n s)
  | 0, _, _, _ => .rfl
  | n + 1, s, ht, ha => by
    rw [State.finishIn]
    split
    · split
      · next u h =>
        have k := steady_handOff h ha
        refine k.trans (steady_finishIn n u ?_ (k.aborts ht ha))
        have e := congrArg (fun u : State => u.tests) k.still
        have e' : u.tests = s.tests := e
        unfold State.noTests; rw [e']; exact ht
      · exact .rfl
    · exact .rfl

/-- Finishing an event while no test is in flight, none is to be aborted and no end report waits. -/
theorem steady_finish (s : State) (ht : s.noTests) (ha : s.work.aborts = []) (he : s.work.ends = []) : Steady s s.finish := by
  have h0 := steady_finishIn handOffFuel s ht ha
  have e : (State.finishIn handOffFuel s).takeEnds = State.finishIn handOffFuel s := takeEnds_of_none (h0.ends.trans he)
  have h := h0.trans (steady_flush _)
  unfold State.finish
  rw [e]
  refine h.trans (.of_eq ?_ rfl rfl rfl rfl rfl rfl id fun _ _ => rfl)
  have k : (State.finishIn handOffFuel s).flush.work.ends = [] := h.ends.trans he
  show ({ (State.finishIn handOffFuel s).flush with work := Work.none } : State).steadyPart = _
  unfold State.steadyPart
  rw [k]
  rfl

/-- With nothing waiting, finishing makes the gathered updates and log entries and no more. -/
theorem finish_of_quiet (s : State) (hq : s.handOff = none) (he : s.work.ends = []) : s.finish = { s.flush with work := Work.none } := by
  unfold State.finish
  have : State.finishIn handOffFuel s = s := by
    show State.finishIn (2047 + 1) s = s
    rw [State.finishIn, hq]
    split <;> rfl
  rw [this, takeEnds_of_none he]

/-- Nothing waits after an event is finished. -/
theorem finish_settled (s : State) : s.finish.settled := rfl

theorem scrub_of_sound (b s : State) (h : s.port.badBytes = []) : State.scrub b s = s := by
  unfold State.scrub; simp [h]

/-- While no check bit of the state inside is at fault, a check of it changes nothing. -/
theorem checked_of_sound (s : State) (f : State → State) (hi : s.insideBad = false) : s.checked f = f s := by
  unfold State.checked
  simp [hi]

/-- An event in SETUP or RUNNING with no check bit at fault. -/
theorem event_of_sound (s : State) (f : State → State) (ha : s.active = true) (hi : s.insideBad = false)
    (hb : (f s).finish.port.badBytes = []) : s.event f = (f s).finish := by
  unfold State.event
  rw [if_pos ha, checked_of_sound _ _ hi]
  exact scrub_of_sound _ _ hb

end Sys2Proof.Machine
end

