-- ==== Sys2Proof/Laws/Orders.lean ====
section
/-! SUPPORT. What the taking of an order does, said once: the command of an order that ends in its own step, of one that is
refused, and of one that enters the in-flight list. -/

namespace Sys2Proof.Machine

open Sys2Proof.Config

/-! ### Bytes of a slot -/

/-- Bytes written in a slot read back. -/
theorem slotByte_writeSlot_same {s : State} (h : s.boardCanonical) (n k j : Nat) (bs : List Byte) (hj : j < bs.length) :
    (s.writeSlot n k bs).slotByte n (k + j) = bs[j] := by
  show readMem (writeBytes s.port.board (slotAddr n k) bs) (slotAddr n (k + j)) = _
  have : slotAddr n (k + j) = slotAddr n k + j := by unfold slotAddr; omega
  rw [this]
  exact readMem_writeBytes_same _ _ _ h hj

/-- Bytes of the same slot outside those written stand. -/
theorem slotByte_writeSlot_apart (s : State) (n k off : Nat) (bs : List Byte) (h : off < k ∨ k + bs.length ≤ off) :
    (s.writeSlot n k bs).slotByte n off = s.slotByte n off :=
  readMem_writeBytes_other _ _ _ _ (by unfold slotAddr; omega)

/-- What the end of an order writes in its slot (R13). -/
theorem writeDone_slot {s : State} (h : s.boardCanonical) (n : Nat) (r : OrderResult) (q : Nat) (vals : List Byte) :
    (s.writeDone n r q vals).handOver n = handDone ∧
    (s.writeDone n r q vals).slotTake n = s.slotTake n ∧
    (s.writeDone n r q vals).slotByte n 4 = BitVec.ofNat 8 r.ctorIdx ∧
    (s.writeDone n r q vals).slotByte n 5 = BitVec.ofNat 8 q ∧
    (List.range 8).map (fun k => (s.writeDone n r q vals).slotByte n (56 + k)) = resultBytes vals ∧
    (∀ off, 6 ≤ off → off < 56 → (s.writeDone n r q vals).slotByte n off = s.slotByte n off) ∧
    (s.writeDone n r q vals).slotByte n 1 = s.slotByte n 1 := by
  let s1 := s.writeSlot n 4 [BitVec.ofNat 8 r.ctorIdx, BitVec.ofNat 8 q]
  let s2 := s1.writeSlot n 56 (resultBytes vals)
  have h1 : s1.boardCanonical := boardCanonical_writeSlot n 4 _ h
  have h2 : s2.boardCanonical := boardCanonical_writeSlot n 56 _ h1
  have e : ∀ m off, (s.writeDone n r q vals).slotByte m off = (s2.writeSlot n 0 [handDone]).slotByte m off := fun _ _ => rfl
  have l : (resultBytes vals).length = 8 := length_resultBytes vals
  have low : ∀ off, 1 ≤ off → off < 4 → (s.writeDone n r q vals).slotByte n off = s.slotByte n off := by
    intro off a b
    rw [e, slotByte_writeSlot_apart s2 n 0 off _ (by simp; omega), slotByte_writeSlot_apart s1 n 56 off _ (by omega),
      slotByte_writeSlot_apart s n 4 off _ (by omega)]
  refine ⟨?_, ?_, ?_, ?_, ?_, ?_, ?_⟩
  · exact slotByte_writeSlot_same h2 n 0 0 [handDone] (by simp)
  · unfold State.slotTake
    rw [low 2 (by omega) (by omega), low 3 (by omega) (by omega)]
  · rw [e, slotByte_writeSlot_apart s2 n 0 4 _ (by simp), slotByte_writeSlot_apart s1 n 56 4 _ (by omega)]
    exact slotByte_writeSlot_same h n 4 0 _ (by simp)
  · rw [e, slotByte_writeSlot_apart s2 n 0 5 _ (by simp), slotByte_writeSlot_apart s1 n 56 5 _ (by omega)]
    exact slotByte_writeSlot_same h n 4 1 _ (by simp)
  · refine List.ext_getElem (by simp [l]) ?_
    intro k hk1 hk2
    rw [List.getElem_map, List.getElem_range, e, slotByte_writeSlot_apart s2 n 0 _ _ (by simp; omega)]
    exact slotByte_writeSlot_same h1 n 56 k _ (by omega)
  · intro off a b
    rw [e, slotByte_writeSlot_apart s2 n 0 off _ (by simp; omega), slotByte_writeSlot_apart s1 n 56 off _ (by omega),
      slotByte_writeSlot_apart s n 4 off _ (by simp; omega)]
  · exact low 1 (by omega) (by omega)

/-- The end of an order leaves every other slot. -/
theorem writeDone_other (s : State) {n m : Nat} (h : m ≠ n) (r : OrderResult) (q : Nat) (vals : List Byte) :
    sameSlot s (s.writeDone n r q vals) m := by
  intro off ho
  have l : (resultBytes vals).length = 8 := length_resultBytes vals
  show (((s.writeSlot n 4 _).writeSlot n 56 _).writeSlot n 0 [handDone]).slotByte m off = _
  rw [slotByte_writeSlot_other _ _ h ho (by simp [slotSize]), slotByte_writeSlot_other _ _ h ho (by rw [l]; decide),
    slotByte_writeSlot_other _ _ h ho (by simp [slotSize])]

theorem outline_of_kept {s t : State} (h : t.keptPart = s.keptPart) : t.outline = s.outline := by
  have k := congrArg (fun u : State => ({ u with orders := { Orders.reset with scanAt := u.orders.scanAt } } : State)) h
  exact k

theorem outline_writeSlot (s : State) (n k : Nat) (bs : List Byte) (h : s.port.badBytes = []) :
    (s.writeSlot n k bs).outline = s.outline := outline_of_kept (writeSlot_keptPart s n k bs h)

theorem outline_writeDone (s : State) (n : Nat) (r : OrderResult) (q : Nat) (vals : List Byte) (h : s.port.badBytes = []) :
    (s.writeDone n r q vals).outline = s.outline := by
  have h1 := writeSlot_badBytes s n 4 [BitVec.ofNat 8 r.ctorIdx, BitVec.ofNat 8 q] h
  have h2 := writeSlot_badBytes _ n 56 (resultBytes vals) h1
  exact (outline_of_kept (steady_raise _ _).kept.still).trans
    ((outline_writeSlot _ n 0 _ h2).trans ((outline_writeSlot _ n 56 _ h1).trans (outline_writeSlot _ n 4 _ h)))

/-- The scan's progress changes nothing but the scan's own fields. -/
theorem advanceScan_eq (s : State) : ∃ o : Orders, s.advanceScan = { s with orders := o } ∧ o.takes = s.orders.takes ∧
    o.scanPos = s.orders.scanPos ∧ o.inFlight = s.orders.inFlight ∧ o.scanAt = s.orders.scanAt := by
  refine ⟨s.advanceScan.orders, ?_⟩
  unfold State.advanceScan
  split
  · dsimp only
    split
    · split <;> exact ⟨rfl, rfl, rfl, rfl, rfl⟩
    · exact ⟨rfl, rfl, rfl, rfl, rfl⟩
  · exact ⟨rfl, rfl, rfl, rfl, rfl⟩

/-! ### The command of an order -/

theorem finish_of_settled {s : State} (h : s.settled) : s.finish = s := by
  rw [finish_of_quiet s (by unfold State.handOff; rw [h]; rfl) (by rw [h]; rfl)]
  obtain ⟨⟩ := s
  simp only [State.settled] at h
  subst h
  rfl

/-- What the taking itself leaves: the take number in the slot, the counter and the scan position (R11). -/
theorem beginTake_frame (s : State) (n : Nat) :
    (s.beginTake n).orders.takes = s.orders.takes + 1#16 ∧ (s.beginTake n).orders.scanPos = n
      ∧ (s.beginTake n).orders.inFlight = s.orders.inFlight ∧ (s.beginTake n).work = s.work
      ∧ (s.beginTake n).supply = s.supply := ⟨rfl, rfl, rfl, rfl, rfl⟩

theorem beginTake_take {s : State} (h : s.boardCanonical) (n : Nat) :
    (s.beginTake n).slotTake n = s.orders.takes + 1#16 := by
  unfold State.slotTake State.beginTake
  have h' : ({ s with orders.takes := s.orders.takes + 1#16, orders.scanPos := n } : State).boardCanonical := h
  dsimp only
  rw [slotByte_writeSlot_same h' n 2 0 _ (by simp [leBytes]), slotByte_writeSlot_same h' n 2 1 _ (by simp [leBytes])]
  simp only [leBytes, List.getElem_cons_zero, List.getElem_cons_succ]
  apply BitVec.eq_of_toNat_eq
  simp only [BitVec.toNat_ofNat]
  have := (s.orders.takes + 1#16).isLt
  omega

/-- The facts of a posted order that its command needs. -/
theorem posted_presents {s : State} {n : Nat} {i : Instr} (h : Posted s n i) :
    s.presents n i = true ∧ s.slotReadBad n = false := by
  unfold State.presents State.slotReadBad
  rw [h.active, h.takeable, h.spells, h.checks]
  simp

theorem posted_free {s : State} {n : Nat} {i : Instr} (h : Posted s n i) : ∀ e ∈ s.orders.inFlight, e.slot ≠ n := by
  have k := h.takeable
  unfold State.takeable at k
  simp only [Bool.and_eq_true, Bool.not_eq_true', List.any_eq_false, decide_eq_true_eq] at k
  exact k.2

theorem posted_running {s : State} {n : Nat} {i : Instr} (h : Posted s n i) : s.orders.scanRunning = true := by
  have k := h.takeable
  unfold State.takeable at k
  simp only [Bool.and_eq_true] at k
  exact k.1.1.1.1

/-- What an order's effects leave for its end: no check bit at fault, the block active, the slot, the take counter and the
scan position as the take left them, and no new in-flight entry. -/
structure Ready (s u : State) (n : Nat) : Prop where
  sound : u.port.badBytes = []
  active : u.active = true
  canonical : u.boardCanonical
  take : u.slotTake n = s.orders.takes + 1#16
  takes : u.orders.takes = s.orders.takes + 1#16
  position : u.orders.scanPos = n
  free : ∀ e ∈ u.orders.inFlight, e.slot ≠ n

theorem ready_beginTake {s : State} {n : Nat} {i : Instr} (h : Posted s n i) : Ready s (s.beginTake n) n where
  sound := writeSlot_badBytes _ _ _ _ h.checks
  active := h.active
  canonical := boardCanonical_writeSlot _ _ _ h.canonical
  take := beginTake_take h.canonical n
  takes := rfl
  position := rfl
  free := fun e he => posted_free h e he

/-- Whatever is kept leaves a state as ready as it was. -/
theorem Ready.kept {s u v : State} {n : Nat} (h : Ready s u n) (k : Settles u v) : Ready s v n := by
  have kk := k.kept h.sound
  have ho := congrArg (fun w : State => (w.orders.takes, w.orders.scanPos, w.supply.phase)) kk.still
  simp only [State.keptPart, State.steadyPart, Prod.mk.injEq] at ho
  exact
    { sound := kk.badBytes.trans h.sound
      active := by have := h.active; unfold State.active at this ⊢; rw [ho.2.2]; exact this
      canonical := k.board h.canonical
      take := by
        have e := kk.slots n h.free
        unfold State.slotTake
        rw [e 2 (by decide), e 3 (by decide)]
        exact h.take
      takes := ho.1.trans h.takes
      position := ho.2.1.trans h.position
      free := fun e he => h.free e (k.flights.subset he) }

/-- The command of a posted order that ends in its own step: its slot shows the end, and everything else is as its effects
left it, but for hand-offs (R10 to R13). -/
theorem takeOrder_ends {s u : State} {n : Nat} {i : Instr} {o : OrderSpec} {r : OrderResult} {q : Nat} {vals : List Byte}
    (hp : Posted s n i) (hr : (s.beginTake n).refusal o = none) (ho : o.own (s.beginTake n) = .ends r q vals u)
    (hu : Ready s u n) : ∃ t, s.takeOrder n i o = .next t ∧ Shows s t n r q vals ∧ Leaves u t n ∧
      t = (u.finish.writeDone n r q vals).advanceScan := by
  obtain ⟨hpres, hbad⟩ := posted_presents hp
  have hf : Ready s u.finish n := hu.kept (settles_finish u)
  have hk : Kept u u.finish := (settles_finish u).kept hu.sound
  have hw := writeDone_slot hf.canonical n r q vals
  have hvb : (u.finish.writeDone n r q vals).port.badBytes = [] := by
    have h1 := writeSlot_badBytes u.finish n 4 [BitVec.ofNat 8 r.ctorIdx, BitVec.ofNat 8 q] hf.sound
    have h2 := writeSlot_badBytes _ n 56 (resultBytes vals) h1
    exact writeSlot_badBytes _ n 0 [handDone] h2
  have hline := (outline_writeDone _ n r q vals hf.sound).trans (outline_of_kept hk.still)
  have hslots : ∀ m, m ≠ n → (∀ e ∈ u.orders.inFlight, e.slot ≠ m) → sameSlot u (u.finish.writeDone n r q vals) m :=
    fun m hm hfree off hoff => (writeDone_other _ hm r q vals off hoff).trans (hk.slots m hfree off hoff)
  have hvis : s.visitTake n o = (u.finish.writeDone n r q vals).advanceScan := by
    unfold State.visitTake State.judgeOrder
    rw [hr]
    dsimp only
    rw [ho]
    dsimp only
    rw [if_pos hf.active]
  obtain ⟨x, he, hx1, hx2, -, hx4⟩ := advanceScan_eq (u.finish.writeDone n r q vals)
  have ht : (s.visitTake n o).finish = (u.finish.writeDone n r q vals).advanceScan := by
    rw [hvis]
    refine finish_of_settled ?_
    rw [he]
    rfl
  refine ⟨_, ?_, ?_, ?_, rfl⟩
  · unfold State.takeOrder
    rw [if_pos hpres]
    congr 1
    have hev := event_of_sound s (fun s => if s.slotReadBad n = true then s.halt .exchangeFault else s.visitTake n o)
      hp.active hp.sound (by
        simp only [hbad, Bool.false_eq_true, if_false]
        rw [ht, he]; exact hvb)
    rw [hev]
    simp only [hbad, Bool.false_eq_true, if_false]
    exact ht
  · rw [he]
    exact
      { done := hw.1
        take := hw.2.1.trans hf.take
        result := hw.2.2.1
        qualifier := hw.2.2.2.1
        values := hw.2.2.2.2.1
        takes := hx1.trans hf.takes
        position := hx2.trans hf.position }
  · have hout : (u.finish.writeDone n r q vals).advanceScan.outline = u.outline := by
      rw [he, ← hline]
      unfold State.outline
      rw [← hx4]
      rfl
    rw [he] at hout ⊢
    exact
      { still := hout
        zones := hk.conf, miners := hk.miners, vehicles := hk.vehicles, refuges := hk.refuges, channels := hk.channels
        tripped := hk.tripped, slots := hslots }

/-- The event of a posted order's command, where the visit leaves no check bit at fault. -/
theorem takeOrder_eq {s t : State} {n : Nat} {i : Instr} {o : OrderSpec} (hp : Posted s n i)
    (ht : (s.visitTake n o).finish = t) (hb : t.port.badBytes = []) : s.takeOrder n i o = .next t := by
  obtain ⟨hpres, hbad⟩ := posted_presents hp
  unfold State.takeOrder
  rw [if_pos hpres]
  congr 1
  have hev := event_of_sound s (fun s => if s.slotReadBad n = true then s.halt .exchangeFault else s.visitTake n o)
    hp.active hp.sound (by
      simp only [hbad, Bool.false_eq_true, if_false]
      rw [ht]; exact hb)
  rw [hev]
  simp only [hbad, Bool.false_eq_true, if_false]
  exact ht

theorem outline_beginTake {s : State} (h : s.port.badBytes = []) (n : Nat) : (s.beginTake n).outline = s.outline :=
  (outline_writeSlot _ n 2 _ h).trans rfl

/-- The command of a posted order that steps 1 to 6 refuse: nothing changes but its slot (R12, R13). -/
theorem takeOrder_refused {s : State} {n : Nat} {i : Instr} {o : OrderSpec} {r : OrderResult} {q : Nat}
    (hp : Posted s n i) (hr : (s.beginTake n).refusal o = some (r, q)) :
    ∃ t, s.takeOrder n i o = .next t ∧ Shows s t n r q [] ∧ Leaves s t n := by
  have hu := ready_beginTake hp
  have hw := writeDone_slot hu.canonical n r q []
  have hvb : ((s.beginTake n).writeDone n r q []).port.badBytes = [] := by
    have h1 := writeSlot_badBytes (s.beginTake n) n 4 [BitVec.ofNat 8 r.ctorIdx, BitVec.ofNat 8 q] hu.sound
    have h2 := writeSlot_badBytes _ n 56 (resultBytes []) h1
    exact writeSlot_badBytes _ n 0 [handDone] h2
  have hline := (outline_writeDone _ n r q [] hu.sound).trans (outline_beginTake hp.checks n)
  have hslots : ∀ m, m ≠ n → sameSlot s ((s.beginTake n).writeDone n r q []) m := fun m hm off hoff =>
    (writeDone_other _ hm r q [] off hoff).trans
      (slotByte_writeSlot_other _ _ hm hoff (by simp [leBytes, slotSize]))
  have hvis : s.visitTake n o = ((s.beginTake n).writeDone n r q []).advanceScan := by
    unfold State.visitTake State.judgeOrder
    rw [hr]
  obtain ⟨x, he, hx1, hx2, -, hx4⟩ := advanceScan_eq ((s.beginTake n).writeDone n r q [])
  have ht : (s.visitTake n o).finish = ((s.beginTake n).writeDone n r q []).advanceScan := by
    rw [hvis]
    refine finish_of_settled ?_
    rw [he]
    exact hp.settled
  refine ⟨_, takeOrder_eq hp ht (by rw [he]; exact hvb), ?_, ?_⟩
  · rw [he]
    exact
      { done := hw.1
        take := hw.2.1.trans hu.take
        result := hw.2.2.1
        qualifier := hw.2.2.2.1
        values := hw.2.2.2.2.1
        takes := hx1.trans hu.takes
        position := hx2.trans hu.position }
  · have hout : ((s.beginTake n).writeDone n r q []).advanceScan.outline = s.outline := by
      rw [he, ← hline]
      unfold State.outline
      rw [← hx4]
      rfl
    rw [he] at hout ⊢
    exact
      { still := hout
        zones := fun _ => rfl, miners := fun _ => rfl, vehicles := fun _ => rfl, refuges := fun _ => rfl
        channels := fun _ => rfl, tripped := fun _ => id, slots := fun m hm _ => hslots m hm }

/-- The in-flight entry and the slot of an order that enters (R11, R14). -/
theorem enterFlight_slot {s : State} {n : Nat} {i : Instr} (hp : Posted s n i) (o : OrderSpec) (k : TargetKind) (x : Nat) :
    InFlightNow s ((s.beginTake n).enterFlight n o k x) n o.code k x := by
  have hu := ready_beginTake hp
  obtain ⟨hb, hi, hpo⟩ :
      ((s.beginTake n).putInFlight ((s.beginTake n).orders.inFlight ++
        [{ slot := n, take := (s.beginTake n).orders.takes, code := o.code, target := k, index := x,
           start := (s.beginTake n).now }])).port.board = (s.beginTake n).port.board ∧
      ((s.beginTake n).putInFlight ((s.beginTake n).orders.inFlight ++
        [{ slot := n, take := (s.beginTake n).orders.takes, code := o.code, target := k, index := x,
           start := (s.beginTake n).now }])).orders.inFlight = (s.beginTake n).orders.inFlight ++
        [{ slot := n, take := (s.beginTake n).orders.takes, code := o.code, target := k, index := x,
           start := (s.beginTake n).now }] ∧
      ((s.beginTake n).putInFlight ((s.beginTake n).orders.inFlight ++
        [{ slot := n, take := (s.beginTake n).orders.takes, code := o.code, target := k, index := x,
           start := (s.beginTake n).now }])).orders.takes = (s.beginTake n).orders.takes ∧
      ((s.beginTake n).putInFlight ((s.beginTake n).orders.inFlight ++
        [{ slot := n, take := (s.beginTake n).orders.takes, code := o.code, target := k, index := x,
           start := (s.beginTake n).now }])).orders.scanPos = (s.beginTake n).orders.scanPos := by
    unfold State.putInFlight
    generalize (s.beginTake n).orders.inFlight ++ _ = l
    have h := steady_bumpPositions inFlightBase inFlightSize (s.beginTake n).orders.inFlight l 0
      { (s.beginTake n) with orders.inFlight := l }
    have ho := h.orders
    have hb := h.board
    generalize State.bumpPositions inFlightBase inFlightSize (s.beginTake n).orders.inFlight l 0
      { (s.beginTake n) with orders.inFlight := l } = w at ho hb ⊢
    refine ⟨hb, ?_, ?_, ?_⟩ <;> (show _ = _; simp [State.bumpSummary, State.bump, ho])
  generalize hw : (s.beginTake n).putInFlight _ = w at hb hi hpo
  have he : (s.beginTake n).enterFlight n o k x
      = ((w.writeSlot n 4 [0#8, 0#8]).writeSlot n 56 (resultBytes [])).writeSlot n 0 [handTaken] := by
    unfold State.enterFlight
    rw [← hw]
  have hc : w.boardCanonical := by unfold State.boardCanonical; rw [hb]; exact hu.canonical
  have hc1 := boardCanonical_writeSlot n 4 [0#8, 0#8] hc
  have hc2 := boardCanonical_writeSlot n 56 (resultBytes []) hc1
  have l : (resultBytes ([] : List Byte)).length = 8 := length_resultBytes []
  have low : ∀ off, off < 4 → 1 ≤ off → ((s.beginTake n).enterFlight n o k x).slotByte n off = (s.beginTake n).slotByte n off := by
    intro off a b
    rw [he, slotByte_writeSlot_apart _ n 0 off _ (by simp; omega), slotByte_writeSlot_apart _ n 56 off _ (by omega),
      slotByte_writeSlot_apart _ n 4 off _ (by omega)]
    show readMem w.port.board _ = readMem _ _
    rw [hb]
  exact
    { taken := by
        unfold State.handOver
        rw [he]
        exact slotByte_writeSlot_same hc2 n 0 0 [handTaken] (by simp)
      take := by
        have : ((s.beginTake n).enterFlight n o k x).slotTake n = (s.beginTake n).slotTake n := by
          unfold State.slotTake
          rw [low 2 (by omega) (by omega), low 3 (by omega) (by omega)]
        rw [this]; exact hu.take
      result := by
        constructor
        · rw [he, slotByte_writeSlot_apart _ n 0 4 _ (by simp), slotByte_writeSlot_apart _ n 56 4 _ (by omega)]
          exact slotByte_writeSlot_same hc n 4 0 _ (by simp)
        · rw [he, slotByte_writeSlot_apart _ n 0 5 _ (by simp), slotByte_writeSlot_apart _ n 56 5 _ (by omega)]
          exact slotByte_writeSlot_same hc n 4 1 _ (by simp)
      values := by
        intro j hj
        rw [he, slotByte_writeSlot_apart _ n 0 _ _ (by simp; omega)]
        rw [slotByte_writeSlot_same hc1 n 56 j _ (by omega)]
        match j, hj with
        | 0, _ | 1, _ | 2, _ | 3, _ | 4, _ | 5, _ | 6, _ | 7, _ => rfl
      entry := by rw [he]; exact hi
      takes := by rw [he]; exact hpo.1
      position := by rw [he]; exact hpo.2 }

/-- What the entry of an order leaves beside its slot and the in-flight list. -/
theorem enterFlight_leaves {s : State} {n : Nat} {i : Instr} (hp : Posted s n i) (o : OrderSpec) (k : TargetKind) (x : Nat) :
    ((s.beginTake n).enterFlight n o k x).port.badBytes = [] ∧ ((s.beginTake n).enterFlight n o k x).outline = s.outline := by
  have hu := ready_beginTake hp
  have hs : Steady { (s.beginTake n) with orders.inFlight := (s.beginTake n).orders.inFlight ++
        [{ slot := n, take := (s.beginTake n).orders.takes, code := o.code, target := k, index := x,
           start := (s.beginTake n).now }] }
      ((s.beginTake n).putInFlight ((s.beginTake n).orders.inFlight ++
        [{ slot := n, take := (s.beginTake n).orders.takes, code := o.code, target := k, index := x,
           start := (s.beginTake n).now }])) :=
    .after (steady_bumpSummary _) (steady_bumpPositions _ _ _ _ _ _)
  have hb := (hs.kept.badBytes).trans hu.sound
  have ho := (outline_of_kept hs.kept.still).trans ((rfl : _ = (s.beginTake n).outline).trans (outline_beginTake hp.checks n))
  have h1 := writeSlot_badBytes _ n 4 [0#8, 0#8] hb
  have h2 := writeSlot_badBytes _ n 56 (resultBytes []) h1
  exact ⟨writeSlot_badBytes _ n 0 [handTaken] h2,
    (outline_writeSlot _ n 0 _ h2).trans ((outline_writeSlot _ n 56 _ h1).trans ((outline_writeSlot _ n 4 _ hb).trans ho))⟩

/-- The visit of a posted order that enters: its effects follow the entry. -/
theorem visitTake_enters {s : State} {n : Nat} {o : OrderSpec} {k : TargetKind} {x : Nat} {f : State → State}
    (hr : (s.beginTake n).refusal o = none) (ho : o.own (s.beginTake n) = .enters f) (ht : o.target = some (k, x)) :
    s.visitTake n o = (f ((s.beginTake n).enterFlight n o k x)).advanceScan := by
  unfold State.visitTake State.judgeOrder
  rw [hr]
  dsimp only
  rw [ho]
  dsimp only
  rw [ht]

end Sys2Proof.Machine
end

