-- ==== Sys2Proof/WellFormed.lean ====
section
/-! DEFINITION. Well-formed commands: every operand fits the field that carries it (the slot's argument bytes of Table 1-4, the
reply's fields of Table 2-1 and Table 2-2, the table sizes of Table 1-1). The meanings do not need it: they judge or ignore
what does not fit. -/

namespace Sys2Proof

open Config

/-- A number fits in some bytes. -/
def fits (bytes v : Nat) : Bool := decide (v < 256 ^ bytes)

/-- A slot of the order board (R8). -/
def slotOk (n : Nat) : Bool := decide (n < slotCount)

def replyHeadOk (h : ReplyHead) : Bool := decide (h.address < 64)

def readingOk (r : RawReading) : Bool := fits 2 r.raw

/-- A sighting: strength 0..63, call code 0..3, sequence 0..15, and vehicle fields for a vehicle's tag id alone (R105). -/
def sightingOk (x : Sighting) : Bool :=
  fits 3 x.tag && decide (x.strength < 64) && decide (x.call < 4) && decide (x.seq < 16)
    && (match x.ack with
      | some k => decide (k < 255)
      | none => true)
    && (match x.vehicle with
      | some f => decide (0x800000 ≤ x.tag) && fits 1 f.speed && fits 2 f.onboard && fits 1 f.echo
      | none => decide (x.tag < 0x800000))

def policyArgsOk (a : PolicyArgs) : Bool :=
  [a.pollPeriod, a.tripCeiling, a.blindGrace, a.lostTime, a.onboardLimit, a.zeroTolerance, a.askWindow].all (fits 2)
    && [a.evacPolicy, a.musterDeadline, a.patEvacuate, a.patDrill, a.patTrip, a.patAlarm, a.patWarn, a.patFault].all (fits 1)

def headArgsOk (a : HeadArgs) : Bool :=
  [a.address, a.kind, a.position, a.count, a.window].all (fits 1) && fits 4 a.serial

def channelArgsOk (a : ChannelArgs) : Bool :=
  [a.index, a.op, a.kind, a.head, a.slot, a.zone, a.window].all (fits 1)
    && [a.zero, a.span, a.gas, a.l1, a.l2, a.l3, a.hyst].all (fits 2)

/-- The lists of a SET ZONE carry every place of the slot: 4 neighbours, 2 readers, 4 relay pairs, 4 sounders (R73). -/
def zoneArgsOk (a : ZoneArgs) : Bool :=
  [a.zone, a.op, a.kind, a.powered, a.vote, a.nNeighbours, a.nReaders, a.nRelays, a.nSounders].all (fits 1)
    && decide (a.neighbours.length = 4) && a.neighbours.all (fits 1)
    && decide (a.readers.length = 2) && a.readers.all (fits 1)
    && decide (a.relays.length = 4) && (a.relays.all fun p => fits 1 p.1 && fits 1 p.2)
    && decide (a.sounders.length = 4) && a.sounders.all (fits 1)

def refugeArgsOk (a : RefugeArgs) : Bool :=
  [a.index, a.op, a.zone, a.panel, a.capacity, a.o2, a.co].all (fits 1)

def vehicleArgsOk (a : VehicleArgs) : Bool := [a.index, a.op, a.number, a.drive].all (fits 1) && fits 3 a.tag

def patternArgsOk (a : PatternArgs) : Bool := [a.index, a.onTime, a.offTime, a.duty, a.repeats].all (fits 1)

def inputArgsOk (a : InputArgs) : Bool := [a.input, a.mode, a.polarity, a.enable, a.zone, a.clear].all (fits 1)

/-- A command is well-formed. -/
def Instr.wf : Instr → Bool
  | .hostMemoryRead _ => true
  | .hostMemoryWrite _ _ _ _ => true
  | .handOverWrite slot _ _ _ => slotOk slot
  | .writtenCountRead => true
  | .takenCountWrite _ _ _ _ => true
  | .noticeWrite _ _ _ => true
  | .noticeEnableWrite _ _ _ => true
  | .scan => true
  | .restart => true
  | .registerWrite addr _ _ _ => decide (registerBase ≤ addr.toNat)
  | .coldReset => true
  | .inputPinChange input _ => decide (1 ≤ input) && decide (input ≤ 4)
  | .enterSetup => true
  | .scanTimerExpiry => true
  | .scanVisit => true
  | .setPolicy slot a => slotOk slot && policyArgsOk a
  | .setHead slot a => slotOk slot && headArgsOk a
  | .retireHead slot address => slotOk slot && fits 1 address
  | .setChannel slot a => slotOk slot && channelArgsOk a
  | .setZone slot a => slotOk slot && zoneArgsOk a
  | .setRefuge slot a => slotOk slot && refugeArgsOk a
  | .setRosterEntry slot index op tag person => slotOk slot && fits 1 index && fits 1 op && fits 3 tag && fits 2 person
  | .setVehicle slot a => slotOk slot && vehicleArgsOk a
  | .setPattern slot a => slotOk slot && patternArgsOk a
  | .setInput slot a => slotOk slot && inputArgsOk a
  | .startDistrict slot => slotOk slot
  | .rollCall slot => slotOk slot
  | .assignAddress slot serial target => slotOk slot && fits 4 serial && fits 1 target
  | .clearTrip slot zone check => slotOk slot && fits 1 zone && fits 1 check
  | .bumpTest slot channel a b window => slotOk slot && fits 1 channel && [a, b, window].all (fits 2)
  | .selfCheck slot head skip => slotOk slot && fits 1 head && fits 1 skip
  | .calibrate slot channel mode gas => slotOk slot && fits 1 channel && fits 1 mode && fits 2 gas
  | .page slot entry message ack timeout =>
    slotOk slot && [entry, message, ack].all (fits 1) && fits 2 timeout
  | .answerCall slot entry answer => slotOk slot && fits 1 entry && fits 1 answer
  | .commandVehicle slot vehicle command => slotOk slot && fits 1 vehicle && fits 1 command
  | .blockZone slot zone => slotOk slot && fits 1 zone
  | .openZone slot zone => slotOk slot && fits 1 zone
  | .startEvacuation slot drill reason => slotOk slot && fits 1 drill && fits 1 reason
  | .declineEvacuation slot check => slotOk slot && fits 1 check
  | .standDown slot check => slotOk slot && fits 1 check
  | .markAccounted slot entry => slotOk slot && fits 1 entry
  | .setClock slot value => slotOk slot && fits 6 value
  | .cancel slot target => slotOk slot && fits 1 target
  | .roundTimerExpiry => true
  | .pollSend => true
  | .identifySend => true
  | .assignSend => true
  | .responseWindowExpiry => true
  | .garbledReply => true
  | .gasReply r =>
    replyHeadOk r.head && decide (r.slots.length ≤ 4) && r.slots.all readingOk && fits 1 r.step && fits 1 r.verdict
      && fits 2 r.value
  | .readerReply r => replyHeadOk r.head && decide (r.sightings.length ≤ 8) && r.sightings.all sightingOk
    && decide ((r.sightings.map fun x => if x.vehicle.isSome then 10 else 6).sum ≤ 48)
  | .relayReply r => replyHeadOk r.head && decide (r.closed.length ≤ 2)
  | .refugeReply r =>
    replyHeadOk r.head && [r.door, r.battery, r.pull].all (fits 1) && fits 2 r.inCount && fits 2 r.outCount
      && readingOk r.o2 && readingOk r.co
  | .sounderReply r => replyHeadOk r.head
  | .identifyReply r => replyHeadOk r.head && fits 4 r.serial
  | .roundEnd => true
  | .blindGraceExpiry zone => decide (zone < zoneCount)
  | .bumpWindowExpiry channel => decide (channel < channelCount)
  | .stepTimerExpiry head => decide (1 ≤ head) && decide (head < 64)
  | .recoveryExpiry channel => decide (channel < channelCount)
  | .pageTimeout entry => decide (entry < rosterCount)
  | .lostTimerExpiry entry => decide (entry < rosterCount)
  | .vehicleLostExpiry vehicle => decide (vehicle < vehicleCount)
  | .askWindowExpiry => true
  | .musterDeadlineExpiry => true
  | .playPhaseExpiry => true
  | .summaryClockRefresh => true
  | .replyBegun => true
  | .markerArrival _ => true

end Sys2Proof
end

