-- ==== Sys2Proof/Laws/PerInstr.lean ====
section
/-! SUPPORT. Laws per command: a well-formed command of an order names a slot of the board. -/

namespace Sys2Proof.Laws.Well

open Config

/-- The board slot a command names, if it is of an order or of the hand-over field. -/
def slotOf : Instr → Option Nat
  | .hostMemoryRead _ => none
  | .hostMemoryWrite _ _ _ _ => none
  | .handOverWrite n _ _ _ => some n
  | .writtenCountRead => none
  | .takenCountWrite _ _ _ _ => none
  | .noticeWrite _ _ _ => none
  | .noticeEnableWrite _ _ _ => none
  | .scan => none
  | .restart => none
  | .registerWrite _ _ _ _ => none
  | .coldReset => none
  | .inputPinChange _ _ => none
  | .enterSetup => none
  | .scanTimerExpiry => none
  | .scanVisit => none
  | .setPolicy n _ => some n
  | .setHead n _ => some n
  | .retireHead n _ => some n
  | .setChannel n _ => some n
  | .setZone n _ => some n
  | .setRefuge n _ => some n
  | .setRosterEntry n _ _ _ _ => some n
  | .setVehicle n _ => some n
  | .setPattern n _ => some n
  | .setInput n _ => some n
  | .startDistrict n => some n
  | .rollCall n => some n
  | .assignAddress n _ _ => some n
  | .clearTrip n _ _ => some n
  | .bumpTest n _ _ _ _ => some n
  | .selfCheck n _ _ => some n
  | .calibrate n _ _ _ => some n
  | .page n _ _ _ _ => some n
  | .answerCall n _ _ => some n
  | .commandVehicle n _ _ => some n
  | .blockZone n _ => some n
  | .openZone n _ => some n
  | .startEvacuation n _ _ => some n
  | .declineEvacuation n _ => some n
  | .standDown n _ => some n
  | .markAccounted n _ => some n
  | .setClock n _ => some n
  | .cancel n _ => some n
  | .roundTimerExpiry => none
  | .pollSend => none
  | .identifySend => none
  | .assignSend => none
  | .responseWindowExpiry => none
  | .garbledReply => none
  | .gasReply _ => none
  | .readerReply _ => none
  | .relayReply _ => none
  | .refugeReply _ => none
  | .sounderReply _ => none
  | .identifyReply _ => none
  | .roundEnd => none
  | .blindGraceExpiry _ => none
  | .bumpWindowExpiry _ => none
  | .stepTimerExpiry _ => none
  | .recoveryExpiry _ => none
  | .pageTimeout _ => none
  | .lostTimerExpiry _ => none
  | .vehicleLostExpiry _ => none
  | .askWindowExpiry => none
  | .musterDeadlineExpiry => none
  | .playPhaseExpiry => none
  | .summaryClockRefresh => none
  | .replyBegun => none
  | .markerArrival _ => none

/-- A well-formed command names no slot outside 0..31 (R8). -/
def Statement (i : Instr) : Prop := i.wf = true → ∀ n, slotOf i = some n → n < slotCount

/-- A command that names no slot. -/
theorem statement_of_none {i : Instr} (h : slotOf i = none) : Statement i := fun _ n e => by rw [h] at e; cases e

/-- A command whose well-formedness begins with its slot's. -/
theorem statement_of_slot {i : Instr} {n : Nat} (h : slotOf i = some n) (w : i.wf = true → slotOk n = true) : Statement i := by
  intro hw m e
  rw [h] at e
  cases e
  simpa [slotOk] using w hw

theorem hostMemoryRead (addr : Half) : Statement (.hostMemoryRead addr) := statement_of_none rfl
theorem hostMemoryWrite (addr data : Half) (lo hi : Bool) : Statement (.hostMemoryWrite addr data lo hi) := statement_of_none rfl
theorem handOverWrite (slot : Nat) (data : Half) (lo hi : Bool) : Statement (.handOverWrite slot data lo hi) :=
  statement_of_slot rfl fun h => h
theorem writtenCountRead : Statement (.writtenCountRead) := statement_of_none rfl
theorem takenCountWrite (high : Bool) (data : Half) (lo hi : Bool) : Statement (.takenCountWrite high data lo hi) := statement_of_none rfl
theorem noticeWrite (data : Half) (lo hi : Bool) : Statement (.noticeWrite data lo hi) := statement_of_none rfl
theorem noticeEnableWrite (data : Half) (lo hi : Bool) : Statement (.noticeEnableWrite data lo hi) := statement_of_none rfl
theorem scan : Statement (.scan) := statement_of_none rfl
theorem restart : Statement (.restart) := statement_of_none rfl
theorem registerWrite (addr data : Half) (lo hi : Bool) : Statement (.registerWrite addr data lo hi) := statement_of_none rfl
theorem coldReset : Statement (.coldReset) := statement_of_none rfl
theorem inputPinChange (input : Nat) (level : Bool) : Statement (.inputPinChange input level) := statement_of_none rfl
theorem enterSetup : Statement (.enterSetup) := statement_of_none rfl
theorem scanTimerExpiry : Statement (.scanTimerExpiry) := statement_of_none rfl
theorem scanVisit : Statement (.scanVisit) := statement_of_none rfl
theorem setPolicy (slot : Nat) (a : PolicyArgs) : Statement (.setPolicy slot a) :=
  statement_of_slot rfl fun h => by simp only [Instr.wf, Bool.and_eq_true] at h; simp [h]
theorem setHead (slot : Nat) (a : HeadArgs) : Statement (.setHead slot a) :=
  statement_of_slot rfl fun h => by simp only [Instr.wf, Bool.and_eq_true] at h; simp [h]
theorem retireHead (slot address : Nat) : Statement (.retireHead slot address) :=
  statement_of_slot rfl fun h => by simp only [Instr.wf, Bool.and_eq_true] at h; simp [h]
theorem setChannel (slot : Nat) (a : ChannelArgs) : Statement (.setChannel slot a) :=
  statement_of_slot rfl fun h => by simp only [Instr.wf, Bool.and_eq_true] at h; simp [h]
theorem setZone (slot : Nat) (a : ZoneArgs) : Statement (.setZone slot a) :=
  statement_of_slot rfl fun h => by simp only [Instr.wf, Bool.and_eq_true] at h; simp [h]
theorem setRefuge (slot : Nat) (a : RefugeArgs) : Statement (.setRefuge slot a) :=
  statement_of_slot rfl fun h => by simp only [Instr.wf, Bool.and_eq_true] at h; simp [h]
theorem setRosterEntry (slot index op tag person : Nat) : Statement (.setRosterEntry slot index op tag person) :=
  statement_of_slot rfl fun h => by simp only [Instr.wf, Bool.and_eq_true] at h; simp [h]
theorem setVehicle (slot : Nat) (a : VehicleArgs) : Statement (.setVehicle slot a) :=
  statement_of_slot rfl fun h => by simp only [Instr.wf, Bool.and_eq_true] at h; simp [h]
theorem setPattern (slot : Nat) (a : PatternArgs) : Statement (.setPattern slot a) :=
  statement_of_slot rfl fun h => by simp only [Instr.wf, Bool.and_eq_true] at h; simp [h]
theorem setInput (slot : Nat) (a : InputArgs) : Statement (.setInput slot a) :=
  statement_of_slot rfl fun h => by simp only [Instr.wf, Bool.and_eq_true] at h; simp [h]
theorem startDistrict (slot : Nat) : Statement (.startDistrict slot) :=
  statement_of_slot rfl fun h => h
theorem rollCall (slot : Nat) : Statement (.rollCall slot) :=
  statement_of_slot rfl fun h => h
theorem assignAddress (slot serial target : Nat) : Statement (.assignAddress slot serial target) :=
  statement_of_slot rfl fun h => by simp only [Instr.wf, Bool.and_eq_true] at h; simp [h]
theorem clearTrip (slot zone check : Nat) : Statement (.clearTrip slot zone check) :=
  statement_of_slot rfl fun h => by simp only [Instr.wf, Bool.and_eq_true] at h; simp [h]
theorem bumpTest (slot channel a b window : Nat) : Statement (.bumpTest slot channel a b window) :=
  statement_of_slot rfl fun h => by simp only [Instr.wf, Bool.and_eq_true] at h; simp [h]
theorem selfCheck (slot head skip : Nat) : Statement (.selfCheck slot head skip) :=
  statement_of_slot rfl fun h => by simp only [Instr.wf, Bool.and_eq_true] at h; simp [h]
theorem calibrate (slot channel mode gas : Nat) : Statement (.calibrate slot channel mode gas) :=
  statement_of_slot rfl fun h => by simp only [Instr.wf, Bool.and_eq_true] at h; simp [h]
theorem page (slot entry message ack timeout : Nat) : Statement (.page slot entry message ack timeout) :=
  statement_of_slot rfl fun h => by simp only [Instr.wf, Bool.and_eq_true] at h; simp [h]
theorem answerCall (slot entry answer : Nat) : Statement (.answerCall slot entry answer) :=
  statement_of_slot rfl fun h => by simp only [Instr.wf, Bool.and_eq_true] at h; simp [h]
theorem commandVehicle (slot vehicle command : Nat) : Statement (.commandVehicle slot vehicle command) :=
  statement_of_slot rfl fun h => by simp only [Instr.wf, Bool.and_eq_true] at h; simp [h]
theorem blockZone (slot zone : Nat) : Statement (.blockZone slot zone) :=
  statement_of_slot rfl fun h => by simp only [Instr.wf, Bool.and_eq_true] at h; simp [h]
theorem openZone (slot zone : Nat) : Statement (.openZone slot zone) :=
  statement_of_slot rfl fun h => by simp only [Instr.wf, Bool.and_eq_true] at h; simp [h]
theorem startEvacuation (slot drill reason : Nat) : Statement (.startEvacuation slot drill reason) :=
  statement_of_slot rfl fun h => by simp only [Instr.wf, Bool.and_eq_true] at h; simp [h]
theorem declineEvacuation (slot check : Nat) : Statement (.declineEvacuation slot check) :=
  statement_of_slot rfl fun h => by simp only [Instr.wf, Bool.and_eq_true] at h; simp [h]
theorem standDown (slot check : Nat) : Statement (.standDown slot check) :=
  statement_of_slot rfl fun h => by simp only [Instr.wf, Bool.and_eq_true] at h; simp [h]
theorem markAccounted (slot entry : Nat) : Statement (.markAccounted slot entry) :=
  statement_of_slot rfl fun h => by simp only [Instr.wf, Bool.and_eq_true] at h; simp [h]
theorem setClock (slot value : Nat) : Statement (.setClock slot value) :=
  statement_of_slot rfl fun h => by simp only [Instr.wf, Bool.and_eq_true] at h; simp [h]
theorem cancel (slot target : Nat) : Statement (.cancel slot target) :=
  statement_of_slot rfl fun h => by simp only [Instr.wf, Bool.and_eq_true] at h; simp [h]
theorem roundTimerExpiry : Statement (.roundTimerExpiry) := statement_of_none rfl
theorem pollSend : Statement (.pollSend) := statement_of_none rfl
theorem identifySend : Statement (.identifySend) := statement_of_none rfl
theorem assignSend : Statement (.assignSend) := statement_of_none rfl
theorem responseWindowExpiry : Statement (.responseWindowExpiry) := statement_of_none rfl
theorem garbledReply : Statement (.garbledReply) := statement_of_none rfl
theorem gasReply (r : GasReply) : Statement (.gasReply r) := statement_of_none rfl
theorem readerReply (r : ReaderReply) : Statement (.readerReply r) := statement_of_none rfl
theorem relayReply (r : RelayReply) : Statement (.relayReply r) := statement_of_none rfl
theorem refugeReply (r : RefugeReply) : Statement (.refugeReply r) := statement_of_none rfl
theorem sounderReply (r : SounderReply) : Statement (.sounderReply r) := statement_of_none rfl
theorem identifyReply (r : IdentifyReply) : Statement (.identifyReply r) := statement_of_none rfl
theorem roundEnd : Statement (.roundEnd) := statement_of_none rfl
theorem blindGraceExpiry (zone : Nat) : Statement (.blindGraceExpiry zone) := statement_of_none rfl
theorem bumpWindowExpiry (channel : Nat) : Statement (.bumpWindowExpiry channel) := statement_of_none rfl
theorem stepTimerExpiry (head : Nat) : Statement (.stepTimerExpiry head) := statement_of_none rfl
theorem recoveryExpiry (channel : Nat) : Statement (.recoveryExpiry channel) := statement_of_none rfl
theorem pageTimeout (entry : Nat) : Statement (.pageTimeout entry) := statement_of_none rfl
theorem lostTimerExpiry (entry : Nat) : Statement (.lostTimerExpiry entry) := statement_of_none rfl
theorem vehicleLostExpiry (vehicle : Nat) : Statement (.vehicleLostExpiry vehicle) := statement_of_none rfl
theorem askWindowExpiry : Statement (.askWindowExpiry) := statement_of_none rfl
theorem musterDeadlineExpiry : Statement (.musterDeadlineExpiry) := statement_of_none rfl
theorem playPhaseExpiry : Statement (.playPhaseExpiry) := statement_of_none rfl
theorem summaryClockRefresh : Statement (.summaryClockRefresh) := statement_of_none rfl
theorem replyBegun : Statement (.replyBegun) := statement_of_none rfl
theorem markerArrival (good : Bool) : Statement (.markerArrival good) := statement_of_none rfl

end Sys2Proof.Laws.Well
end

