-- ==== Sys2Proof/Tests/Slice0.lean ====
section
/-! SUPPORT. Tests: the checks of well-formedness, the spec's worked values, one small step for many commands, and for each
obligation with hypotheses a state and operands that meet them. -/

open Sys2Proof Sys2Proof.Config Sys2Proof.Machine

namespace Sys2Proof.Tests

/-! ### Well-formedness refuses what does not fit -/

def okHead : ReplyHead :=
  { address := 1, toggle := false, rejected := false, localFault := false, failsafe := false, warmup := false, more := false }

def okSighting : Sighting :=
  { tag := 7, strength := 20, batteryLow := false, motionless := false, call := 0, seq := 0, ack := none, vehicle := none }

def okZone : ZoneArgs :=
  { zone := 1, op := 1, kind := 0, powered := 0, vote := 1, nNeighbours := 0, neighbours := [0, 0, 0, 0], nReaders := 0,
    readers := [0, 0], nRelays := 0, relays := [(0, 0), (0, 0), (0, 0), (0, 0)], nSounders := 0, sounders := [0, 0, 0, 0] }

def keepPolicy : PolicyArgs :=
  { pollPeriod := 0xFFFF, tripCeiling := 0xFFFF, blindGrace := 0xFFFF, lostTime := 0xFFFF, onboardLimit := 0xFFFF,
    zeroTolerance := 0xFFFF, evacPolicy := 0xFF, askWindow := 0xFFFF, musterDeadline := 0xFF, patEvacuate := 0xFF,
    patDrill := 0xFF, patTrip := 0xFF, patAlarm := 0xFF, patWarn := 0xFF, patFault := 0xFF }

theorem test_wf_slot : (Instr.startDistrict 31).wf = true ∧ (Instr.startDistrict 32).wf = false := by decide
theorem test_wf_hand_over : (Instr.handOverWrite 32 0#16 true true).wf = false := by decide
theorem test_wf_register : (Instr.registerWrite 0xFFEF#16 0#16 true true).wf = false := by decide
theorem test_wf_pin : (Instr.inputPinChange 0 true).wf = false ∧ (Instr.inputPinChange 5 true).wf = false := by decide
theorem test_wf_byte : (Instr.retireHead 0 255).wf = true ∧ (Instr.retireHead 0 256).wf = false := by decide
theorem test_wf_policy_half : (Instr.setPolicy 0 { keepPolicy with pollPeriod := 65536 }).wf = false := by decide
theorem test_wf_policy_byte : (Instr.setPolicy 0 { keepPolicy with evacPolicy := 256 }).wf = false := by decide
theorem test_wf_head_serial :
    (Instr.setHead 0 { address := 1, kind := 0, position := 1, count := 1, window := 4, serial := 2 ^ 32 }).wf = false := by decide
theorem test_wf_channel : (Instr.setChannel 0
    { index := 0, op := 0, kind := 0, head := 1, slot := 0, zone := 0, zero := 65536, span := 0, gas := 0, l1 := 0, l2 := 0,
      l3 := 0, hyst := 0, window := 1 }).wf = false := by decide
theorem test_wf_zone_places : (Instr.setZone 0 okZone).wf = true ∧ (Instr.setZone 0 { okZone with readers := [0] }).wf = false ∧
    (Instr.setZone 0 { okZone with relays := [(0, 256), (0, 0), (0, 0), (0, 0)] }).wf = false := by decide
theorem test_wf_refuge :
    (Instr.setRefuge 0 { index := 0, op := 0, zone := 1, panel := 4, capacity := 256, o2 := 0, co := 1 }).wf = false := by decide
theorem test_wf_roster_tag : (Instr.setRosterEntry 0 0 1 (2 ^ 24) 0).wf = false := by decide
theorem test_wf_vehicle_tag : (Instr.setVehicle 0 { index := 0, op := 1, tag := 2 ^ 24, number := 0, drive := 0 }).wf = false := by
  decide
theorem test_wf_pattern : (Instr.setPattern 0 { index := 0, onTime := 256, offTime := 0, duty := 0, repeats := 0 }).wf = false := by
  decide
theorem test_wf_input :
    (Instr.setInput 0 { input := 256, mode := 0, polarity := 0, enable := 0, zone := 0, clear := 0 }).wf = false := by decide
theorem test_wf_assign : (Instr.assignAddress 0 (2 ^ 32) 1).wf = false := by decide
theorem test_wf_bump : (Instr.bumpTest 0 0 65536 0 10).wf = false := by decide
theorem test_wf_calibrate : (Instr.calibrate 0 0 1 65536).wf = false := by decide
theorem test_wf_page : (Instr.page 0 0 0 0 65536).wf = false := by decide
theorem test_wf_clock : (Instr.setClock 0 (2 ^ 48)).wf = false := by decide
theorem test_wf_reply_head : (Instr.sounderReply { head := { okHead with address := 64 }, pulled := false }).wf = false := by decide
theorem test_wf_gas_slots : (Instr.gasReply
    { head := okHead, slots := List.replicate 5 ⟨0, false, false⟩, step := 0, verdict := 0, value := 0 }).wf = false := by decide
theorem test_wf_sightings : (Instr.readerReply { head := okHead, sightings := List.replicate 9 okSighting }).wf = false := by decide
theorem test_wf_sighting_fields :
    (Instr.readerReply { head := okHead, sightings := [{ okSighting with strength := 64 }] }).wf = false ∧
    (Instr.readerReply { head := okHead, sightings := [{ okSighting with call := 4 }] }).wf = false ∧
    (Instr.readerReply { head := okHead, sightings := [{ okSighting with seq := 16 }] }).wf = false ∧
    (Instr.readerReply { head := okHead, sightings := [{ okSighting with tag := 0x800000 }] }).wf = false := by decide
theorem test_wf_relay_circuits : (Instr.relayReply { head := okHead, closed := [true, true, true] }).wf = false := by decide
theorem test_wf_refuge_reply : (Instr.refugeReply
    { head := okHead, door := 256, inCount := 0, outCount := 0, battery := 0, pull := 0, o2 := ⟨0, false, false⟩,
      co := ⟨0, false, false⟩ }).wf = false := by decide
theorem test_wf_identify_serial : (Instr.identifyReply { head := okHead, kind := .gas, serial := 2 ^ 32 }).wf = false := by decide
theorem test_wf_expiries :
    (Instr.blindGraceExpiry 32).wf = false ∧ (Instr.bumpWindowExpiry 96).wf = false ∧ (Instr.stepTimerExpiry 0).wf = false ∧
    (Instr.recoveryExpiry 96).wf = false ∧ (Instr.pageTimeout 256).wf = false ∧ (Instr.lostTimerExpiry 256).wf = false ∧
    (Instr.vehicleLostExpiry 24).wf = false := by decide

/-- No row of the opcode table gives bits, so no word spells a command. -/
theorem test_no_word_spells : Sys2Proof.decodeTableWord 16 0x4001 = none := by decide

/-! ### The spec's worked values -/

/-- The check bytes of R17's worked examples. -/
theorem test_crc8_stand_down : crc8 [0x52#8] = 0x54#8 := by decide
theorem crc8_snoc (l : List Byte) (b : Byte) : crc8 (l ++ [b]) = crcByte (crc8 l) b := by simp [crc8]
theorem test_crc8_code : crc8 [0x20#8] = 0x31#8 := by decide
theorem test_crc8_clear_trip : crc8 [0x20#8, 5#8] = 0x61#8 := by
  rw [show [0x20#8, 5#8] = [0x20#8] ++ [5#8] from rfl, crc8_snoc, test_crc8_code]; decide

/-- The channels of the worked conversions (Chapter 3, after R61). -/
def ch4 : Channel :=
  { kind := .ch4, head := 1, slot := 0, zone := some 1, zero := 410, span := 3686, gas := 250, l1 := 100, l2 := 125, l3 := 150,
    hyst := 10, window := 4, state := .normal, cause := none, lastRaw := none, v := 0, mean := none, level := 0,
    overRange := false, n := 0, changed := 0 }
def co : Channel := { ch4 with kind := .co, slot := 1, zero := 400, span := 2000, gas := 500 }

theorem test_conversions_ch4 : [1720, 410, 400, 200].map ch4.convert = [100, 0, 0, 0] := by decide
theorem test_drift_low : [1720, 410, 400, 200].map ch4.drifted = [false, false, false, true] := by decide
theorem test_conversions_co : [408, 401, 4000, 2100].map co.convert = [3, 0, 1000, 531] := by decide
theorem test_over_range : [4000, 2100].map co.overScale = [true, false] := by decide

/-- The worked window of R62: W = 4, values 96, 98, 100, 103, 101. -/
theorem test_window_means :
    ([96, 98, 100, 103, 101].foldl (fun (p : List Nat × List (Option Nat)) v =>
      (appendWindow 4 p.1 v, p.2 ++ [meanOf (appendWindow 4 p.1 v)])) ([], [])).2
      = [some 96, some 97, some 98, some 99, some 101] := by decide

/-! ### A small running district -/

def live : State := { State.reset with supply.phase := .running }

def onlineHead (k : HeadKind) (position count serial : Nat) : Head :=
  { Head.blank with configured := true, kind := k, position := position, count := count, window := 2, link := .online
                    serial := some serial, identified := some serial }

def miner7 : Miner :=
  { tag := 7, person := 12, state := .present, zone := some 1, lastReader := some 2, strength := 20, lastSeen := some 0,
    call := none, callTime := none, lastSeq := none, pageTake := none, pageCode := none, pageAck := none,
    muster := .notRequired, accounted := false, assist := false, batteryLow := false, motionless := false }

def vehicle5 : Vehicle :=
  { tag := 0x800005, number := 9, drive := .diesel, state := .present, zone := some 1, lastReader := some 2, strength := 20,
    lastSeen := some 0, speed := 0, moving := false, onboard := 0, batteryLow := false, host := .none, zoneCmd := .none,
    encounterCmd := .none, evacCmd := .none, onboardCmd := .none, crowdedCmd := .none, effective := .none, acked := .none,
    crowded := false, unacked := 0 }

def refuge0 : Refuge :=
  { zone := 3, panel := 4, capacity := 10, door := .closed, inCount := 0, outCount := 0, doorOcc := 0, tagOcc := 0, o2 := 10,
    co := 11, battery := .ok, pulled := false, usable := true, reasons := 0, mismatch := false }

/-- One roadway with a gas head, a reader, a relay circuit and a sounder, a refuge, a miner and a vehicle. -/
def mine : State :=
  { live with
    loop.heads := [(1, onlineHead .gas 1 1 101), (2, onlineHead .reader 2 0 102), (3, onlineHead .relay 3 1 103),
      (4, onlineHead .refuge 4 0 104), (5, onlineHead .sounder 5 0 105)]
    air.channels := [(0, ch4)]
    zone.zones := [(1, { Zone.blank with
      inUse := true, kind := .roadway, vote := 1, readers := [2], relays := [(3, 0)], sounders := [5] })]
    people.roster := [(3, miner7)]
    haul.vehicles := [(2, vehicle5)]
    route.refuges := [(0, refuge0)]
    supply.runTime := 100000
    supply.mineClock := 100000 }

/-- A slot holds a POSTED order and the scan has reached it. -/
def post (code : Nat) (args : List Nat) (s : State) : State :=
  { (((s.writeSlot 0 8 (args.map (BitVec.ofNat 8))).writeSlot 0 1 [BitVec.ofNat 8 code]).writeSlot 0 0 [handPosted]) with
    orders.scanRunning := true, orders.next := 0, orders.left := 32 }

def postedOk (n : Nat) (i : Instr) (s : State) : Bool :=
  s.active && !s.insideBad && s.port.badBytes.isEmpty && Memory.wf s.port.board && decide (s.work = Work.none)
    && s.takeable n && decide (s.decodeOrder n = some i)

theorem posted_of {n : Nat} {i : Instr} {s : State} (h : postedOk n i s = true) : Posted s n i := by
  simp only [postedOk, Bool.and_eq_true, decide_eq_true_eq, Bool.not_eq_true', List.isEmpty_iff] at h
  obtain ⟨⟨⟨⟨⟨⟨a, b⟩, c⟩, d⟩, e⟩, f⟩, g⟩ := h
  exact ⟨a, b, c, d, e, f, g⟩

def awakeOk (s : State) : Bool :=
  s.active && !s.insideBad && s.port.badBytes.isEmpty && decide (s.work = Work.none)

theorem awake_of {s : State} (h : awakeOk s = true) : Awake s := by
  simp only [awakeOk, Bool.and_eq_true, decide_eq_true_eq, Bool.not_eq_true', List.isEmpty_iff] at h
  obtain ⟨⟨⟨a, b⟩, c⟩, d⟩ := h
  exact ⟨a, b, c, d⟩

def risingOk (s : State) : Bool :=
  risingFrom 0 s.air.channels && risingFrom 0 s.people.roster && risingFrom 0 s.haul.vehicles && risingFrom 0 s.route.refuges
    && risingFrom 0 s.people.pages && risingFrom 0 s.tests.recoveries

theorem rising_of {s : State} (h : risingOk s = true) : s.tablesRising := by
  simp only [risingOk, Bool.and_eq_true] at h
  obtain ⟨⟨⟨⟨⟨a, b⟩, c⟩, d⟩, e⟩, f⟩ := h
  exact ⟨a, b, c, d, e, f⟩

theorem noTests_of {s : State} (h : (s.tests.bumps.isEmpty && s.tests.cals.isEmpty && s.tests.checks.isEmpty) = true) :
    s.noTests := by
  simp only [Bool.and_eq_true, List.isEmpty_iff] at h
  exact ⟨h.1.1, h.1.2, h.2⟩

theorem lookupAt_every {α : Type} {p : Nat → α → Bool} : ∀ (t : Tbl α) (i : Nat) (x : α), (t.all fun e => p e.1 e.2) = true →
    lookupAt t i = some x → p i x = true
  | (k, a) :: t, i, x, h, e => by
    simp only [List.all_cons, Bool.and_eq_true] at h
    rw [lookupAt] at e
    split at e
    · rename_i hk; cases e; subst hk; exact h.1
    · exact lookupAt_every t i x h.2 e
theorem lookupAt_all {α : Type} {p : α → Bool} (t : Tbl α) (i : Nat) (x : α) (h : (t.all fun e => p e.2) = true)
    (e : lookupAt t i = some x) : p x = true := lookupAt_every (p := fun _ => p) t i x h e

theorem distinct_of {α : Type} {t : Tbl α} {f : α → Nat}
    (h : (t.all fun p => t.all fun q => !decide (f p.2 = f q.2) || decide (p.1 = q.1)) = true) {i j : Nat} {x y : α}
    (hi : lookupAt t i = some x) (hj : lookupAt t j = some y) (e : f x = f y) : i = j := by
  have a := lookupAt_every (p := fun i x => t.all fun q => !decide (f x = f q.2) || decide (i = q.1)) t i x h hi
  have b := lookupAt_every (p := fun j y => !decide (f x = f y) || decide (i = j)) t j y a hj
  simpa [e] using b

theorem relaySafe_of {s : State} (h : (s.zone.zones.all fun e => !e.2.closed) = true) : s.relaySafe := by
  intro z hz
  unfold State.zoneRec at hz
  cases e : lookupAt s.zone.zones z with
  | none => rw [e] at hz; cases hz
  | some r => rw [e] at hz; have := lookupAt_all (p := fun r => !r.closed) s.zone.zones z r h e; simp_all

theorem airCurrent_of {s : State} (h : (s.zone.zones.all fun e => !e.2.inUse) = true) : s.airCurrent := by
  intro z hz
  unfold State.zoneRec at hz
  cases e : lookupAt s.zone.zones z with
  | none => rw [e] at hz; cases hz
  | some r => rw [e] at hz; have := lookupAt_all (p := fun r => !r.inUse) s.zone.zones z r h e; simp_all

/-- State.coverSpare, to evaluate. -/
def spareOk (s : State) (l : List Nat) : Bool :=
  l.all fun i => match s.channel? i with
    | none => true
    | some c => match c.zone with
      | none => true
      | some z =>
        let r := s.zoneRec z
        let taken := (l.filterMap s.channel?).filter fun d => decide (d.zone = some z ∧ d.kind = c.kind)
        decide ((r.closed = false ∧ (r.powered = false ∨ r.trip = .tripped)) ∨
          (risingFrom 0 s.air.channels = true ∧ r.agg c.kind = s.aggregate z c.kind ∧
            min r.vote (r.agg c.kind).configured + (taken.filter s.healthy).length ≤ (r.agg c.kind).healthy))

theorem spare_of {s : State} {l : List Nat} (h : spareOk s l = true) : s.coverSpare l := by
  intro i hi c hc z hz
  have h := List.all_eq_true.mp h i hi
  rw [hc] at h
  simp only [hz] at h
  exact of_decide_eq_true h

/-! ### Witnesses: the machine -/

theorem witness_StepRunsTheFrontCommand :
    { live with pending := [Instr.scan, .restart] }.pending = Instr.scan :: [.restart] ∧ live.pending = [] ∧
    live.ownWork.isSome = false ∧ { live with orders.scanRunning := true }.ownWork = some .scanVisit := by decide
/-- A powered zone with its relay command CLOSED. -/
def closedZone : State :=
  { mine with
    zone.zones := [(1, { Zone.blank with
      inUse := true, kind := .roadway, powered := true, vote := 1, readers := [2], relays := [(3, 0)], covered := true, closed := true })] }
/-- Two tags of each sort, a bump test and a page in flight, and two pairs. -/
def crowd : State :=
  { mine with
    people.roster := [(3, miner7), (255, { miner7 with tag := 8 })]
    haul.vehicles := [(2, vehicle5), (23, { vehicle5 with tag := 0x800006 })]
    haul.encounters := [⟨2, 3, 1, 0, 0⟩, ⟨2, 255, 1, 0, 1⟩]
    orders.inFlight :=
      [{ slot := 1, take := 0, code := 0x21, target := .channel, index := 0, start := 0 },
       { slot := 2, take := 1, code := 0x30, target := .roster, index := 3, start := 0 }] }
def mustering : State :=
  { mine with
    people.roster := [(3, { miner7 with muster := .required })]
    people.conditions :=
      [{ ref := .miner 3, kind := .evacuate, code := 0, target := 0xFF, next := 0xFF, created := 0, acked := false }]
    evac.state := .mustering, evac.unaccounted := 1, evac.required := 1, evac.overlay := .evacuate, evac.vehicleFlag := true }
theorem answers (s : State) (h : (match step s with | .next _ => true | _ => false) = true) : ∃ t, step s = .next t := by
  cases e : step s <;> simp [e] at h ⊢
theorem witness_StepsKeepTheForms :
    (∃ t, step crowd = .next t) ∧ crowd.boardCanonical ∧ crowd.noticeLegal ∧ crowd.inFlightLegal ∧ crowd.tablesRising ∧ crowd.settled :=
  ⟨answers _ rfl, by unfold State.boardCanonical; decide, ⟨by decide, by decide⟩, by unfold State.inFlightLegal; decide,
    rising_of (by decide), by unfold State.settled; decide⟩
theorem witness_RelayCommandsStaySafe : (∃ t, step closedZone = .next t) ∧ closedZone.relaySafe ∧ (closedZone.zoneRec 1).closed = true := by
  refine ⟨answers _ rfl, fun z h => ?_, rfl⟩
  by_cases e : z = 1
  · subst e; decide
  · have : closedZone.zoneRec z = Zone.blank := by
      simp [State.zoneRec, closedZone, lookupAt, show ¬1 = z from fun h => e h.symm]
    rw [this] at h; cases h
theorem witness_TripLatchStands :
    (∃ t, step { live with supply.retained.latches := [31] } = .next t) ∧
    { live with supply.retained.latches := [31] }.latched 31 = true := ⟨answers _ rfl, by decide⟩
theorem witness_ListsStayDistinct : (∃ t, step crowd = .next t) ∧ crowd.tablesRising ∧ crowd.listsDistinct :=
  ⟨answers _ rfl, rising_of (by decide), ⟨by decide, fun _ _ _ _ h k => distinct_of (f := (·.tag)) (by decide) h k,
    fun _ _ _ _ h k => distinct_of (f := (·.tag)) (by decide) h k, by decide⟩⟩
theorem witness_MusterStaysSound : (∃ t, step mustering = .next t) ∧ mustering.tablesRising ∧ mustering.musterSound := by
  refine ⟨answers _ rfl, rising_of (by decide), by decide, by decide, fun h => absurd h (by decide), fun i => ?_⟩
  by_cases e : i = 3
  · subst e; decide
  · simp [State.condition?, State.miner?, mustering, lookupAt, show ¬3 = i from fun h => e h.symm]

/-! ### Witnesses: the host port -/

theorem witness_HostReadReturnsTheWord :
    (0xFFF0#16).toNat / 2 * 2 ≠ logControlBase ∧ (0xFFF0#16).toNat / 2 * 2 ≠ logControlBase + 2 ∧
    live.port.badBytes.contains ((0xFFF0#16).toNat / 2 * 2) = false ∧
    live.port.badBytes.contains ((0xFFF0#16).toNat / 2 * 2 + 1) = false := by decide
theorem witness_HostReadReturnsTheWord_memory :
    (0x0BFE#16).toNat / 2 * 2 ≠ logControlBase ∧ (0x0BFE#16).toNat / 2 * 2 ≠ logControlBase + 2 ∧ (0x0BFE#16).toNat / 2 * 2 < registerBase ∧
    live.port.badBytes = [] ∧ State.reset.supply.phase = .boot := by decide
theorem witness_HostReadReturnsTheWord_regions :
    let x : LogEntry := { clock := 1, kind := 0xA1, cls := 7, index := 0, a := 0, b := 1, seq := 0 }
    let s := { mine with
      port.log := [(255, x)], orders.inFlight := (List.range 8).map fun k =>
        { slot := k, take := 0, code := 0x30, target := .roster, index := k, start := 0 } }
    lookupAt s.port.log 255 = some x ∧ lookupAt s.port.log 0 = none ∧ s.orders.inFlight[7]?.isSome = true ∧
    mine.orders.inFlight.length ≤ 0 ∧ s.channel? 95 = none ∧ (s.zoneRec 31).inUse = false ∧ s.latched 31 = false ∧ s.miner? 255 = none ∧
    s.vehicle? 23 = none ∧ s.haul.encounters.length ≤ 47 ∧ s.refuge? 3 = none ∧ lookupAt s.people.lists 23 = none := by decide
theorem test_ident_reads : exec (.hostMemoryRead 0xFFF0#16) live = .next { live with port.hostData := 0x4001#16 } := by
  rfl
theorem witness_CheckBitMismatchHalts :
    let s := { live with port.badBytes := [0x0011] }
    (0x0010#16).toNat / 2 * 2 < registerBase ∧ (0x0010#16).toNat / 2 * 2 ≠ logControlBase + 2 ∧ s.active = true ∧
    (s.port.badBytes.contains 0x0010 = true ∨ s.port.badBytes.contains (0x0010 + 1) = true) := by decide
theorem witness_CheckBitMismatchHalts_halted :
    let s := { live with port.badBytes := [0x0010], supply.phase := .halted, supply.fatal := .internalCheck }
    s.port.badBytes.contains 0x0010 = true ∧ s.supply.phase = .halted := by decide
theorem witness_CheckBitMismatchHalts_visit :
    let s := { post 0x60 [1, 2, 3, 4, 5, 6] live with port.badBytes := [slotAddr 0 55] }
    s.active = true ∧ s.insideBad = false ∧ s.orders.scanRunning = true ∧ s.orders.next = 0 ∧ s.takeable 0 = true ∧
    s.port.badBytes.contains (slotAddr 0 55) = true := by decide
theorem witness_CheckBitMismatchHalts_report :
    { live with port.badBytes := [slotAddr 31 3] }.port.badBytes.contains (slotAddr 31 3) = true := by decide
theorem witness_CheckBitMismatchHalts_inside :
    let s := { post 0x60 [1, 2, 3, 4, 5, 6] live with supply.internalBad := true, supply.runTime := 20 }
    s.active = true ∧ s.supply.internalBad = true ∧ isUnitEvent .scan = true ∧ s.presents 0 (.setClock 0 0x060504030201) = true ∧
    (s.input 4).raw ≠ true ∧ 10 ≤ elapsed s.supply.runTime s.port.refreshAt ∧ 20 ≤ elapsed s.supply.runTime s.orders.scanAt := by decide
theorem witness_HostWritesAreProtected_slot :
    31 < slotCount ∧ 62 + 1 < slotSize ∧ (BitVec.ofNat 16 (slotAddr 31 62) : Half).toNat / 2 * 2 = slotAddr 31 62 ∧
    live.supply.phase ≠ .boot ∧ Memory.wf live.port.board = true := by decide
theorem witness_HostWritesAreProtected_other :
    (0x0000#16).toNat / 2 * 2 < registerBase ∧
    (State.reset.supply.phase = .boot ∨
      ((0x0000#16).toNat / 2 * 2 < boardBase ∨ boardBase + slotSize * slotCount ≤ (0x0000#16).toNat / 2 * 2) ∧
        (0x0000#16).toNat / 2 * 2 ≠ logControlBase + 4 ∧ (0x0000#16).toNat / 2 * 2 ≠ logControlBase + 6) := by decide
theorem witness_TheLogAndItsCounts_counts : live.supply.phase ≠ .boot ∧ live.port.badBytes = [] := by decide
theorem witness_TheLogAndItsCounts_boot : State.reset.supply.phase = .boot := by decide
theorem witness_TheLogAndItsCounts_flush :
    let s := { live with
      work.dirty := [0x0000, 0x1C20], work.guests := [(.vehicle, 0x1C20)], work.news := [{ kind := 0xA1, cls := 7, index := 0, a := 1, b := 2 }]
      work.late := [{ kind := 0x54, cls := 3, index := 0, a := 1, b := 2 }], port.written := 254 }
    s.work.dirty.Pairwise (· < ·) ∧ (s.work.dirty ++ s.work.guests.map Prod.snd).count 0x1C20 = 2 ∧
    s.backlog + (s.work.news ++ s.work.late).length ≤ 256 ∧ (s.work.news ++ s.work.late)[1]?.isSome = true := by decide
theorem witness_HostWritesAreProtected_window :
    registerBase ≤ (0xFFFE#16).toNat ∧ (0xFFFE#16).toNat / 2 * 2 ≠ 0xFFF4 ∧ (0xFFFE#16).toNat / 2 * 2 ≠ 0xFFF6 ∧
    (0xFFFE#16).toNat / 2 * 2 ≠ 0xFFF8 := by decide
theorem witness_ScanRequestsAndVisits_request :
    live.active = true ∧ live.orders.scanRunning = false ∧ { live with orders.scanRunning := true }.orders.scanRunning = true ∧
    20 ≤ elapsed { live with supply.runTime := 20 }.supply.runTime { live with supply.runTime := 20 }.orders.scanAt ∧
    live.insideBad = false ∧ State.reset.active = false := by decide
theorem witness_ScanRequestsAndVisits_next :
    Awake { live with orders.scanRunning := true, orders.left := 2 } ∧
    { live with orders.scanRunning := true, orders.left := 2 }.handOver 0 ≠ handPosted := ⟨awake_of (by decide), by decide⟩
theorem witness_ScanRequestsAndVisits_end :
    Awake { live with orders.scanRunning := true, orders.left := 1, orders.scanPending := true } ∧
    { live with orders.scanRunning := true, orders.left := 1, orders.scanPending := true }.handOver 0 ≠ handPosted :=
  ⟨awake_of (by decide), by decide⟩
theorem witness_ResetsEnterBootAndSetupBegins :
    live.supply.retained.checkBad = false ∧ { live with supply.retained.checkBad := true }.supply.retained.checkBad = true := by decide
theorem witness_PinsFormTheInputs :
    (live.input 4).raw ≠ true ∧ Awake live ∧ State.reset.supply.phase = .boot ∧ { live with supply.phase := .halted }.supply.phase = .halted :=
  ⟨by decide, awake_of (by decide), by decide, by decide⟩
theorem witness_RefreshAndPlay_refresh :
    let s := { live with supply.runTime := 10 }
    s.supply.phase ≠ .boot ∧ s.insideBad = false ∧ s.port.badBytes = [] ∧ 10 ≤ elapsed s.supply.runTime s.port.refreshAt := by decide
theorem witness_RefreshAndPlay_play :
    let s := { live with supply.runTime := 10, alarm.play := { pattern := some 1, stage := .on, cycles := 0, since := 0 },
                         alarm.patterns := [(1, ⟨1, 1, 0, 0⟩)] }
    s.alarm.play.pattern = some 1 ∧ s.alarm.play.stage = .on ∧
    (s.pattern 1).onTime * 10 ≤ elapsed s.supply.runTime s.alarm.play.since := by decide
theorem witness_RefreshAndPlay_off :
    let s := { live with supply.runTime := 10, alarm.play := { pattern := some 1, stage := .off, cycles := 0, since := 0 },
                         alarm.patterns := [(1, ⟨1, 1, 0, 0⟩)] }
    s.alarm.play.pattern = some 1 ∧ s.alarm.play.stage = .off ∧
    (s.pattern 1).offTime * 10 ≤ elapsed s.supply.runTime s.alarm.play.since := by decide

/-! ### Witnesses: orders -/

def specOr (i : Instr) : OrderSpec := (specOf i).getD startOrder

/-- One refusal of each kind: BAD_CHECK, NOT_NOW, BAD_ARGUMENT, BUSY and FULL. -/
theorem witness_RefusedOrdersChangeNothing_check : Posted (post 0x52 [0] live) 0 (.standDown 0 0) ∧ specOf (.standDown 0 0) = some (specOr (.standDown 0 0)) ∧
    (specOr (.standDown 0 0)).checkOk = false := ⟨posted_of (by decide), rfl, by decide⟩
def quietSetup : State := { live with supply.phase := .setup }
theorem witness_RefusedOrdersChangeNothing_now : Posted (post 0x53 [1] quietSetup) 0 (.markAccounted 0 1) ∧
    specOf (.markAccounted 0 1) = some (specOr (.markAccounted 0 1)) ∧ (specOr (.markAccounted 0 1)).checkOk = true ∧
    ¬((post 0x53 [1] quietSetup).running = true ∨ (specOr (.markAccounted 0 1)).inSetup = true) :=
  ⟨posted_of (by decide), rfl, by decide, by decide⟩
theorem witness_RefusedOrdersChangeNothing_argument : Posted (post 0x40 [32] live) 0 (.blockZone 0 32) ∧
    specOf (.blockZone 0 32) = some (specOr (.blockZone 0 32)) ∧ (specOr (.blockZone 0 32)).checkOk = true ∧
    ((post 0x40 [32] live).running = true ∨ (specOr (.blockZone 0 32)).inSetup = true) ∧
    (specOr (.blockZone 0 32)).bad = some 8 := ⟨posted_of (by decide), rfl, by decide, by decide, by decide⟩
def flight (slot code : Nat) (k : TargetKind) (i : Nat) : InFlight :=
  { slot := slot, take := 0, code := code, target := k, index := i, start := 0 }
theorem witness_RefusedOrdersChangeNothing_busy :
    let s := post 0x10 [] { live with orders.inFlight := [flight 1 0x10 .loop 0] }
    Posted s 0 (.rollCall 0) ∧ specOf (.rollCall 0) = some (specOr (.rollCall 0)) ∧ (specOr (.rollCall 0)).checkOk = true ∧
    s.running = true ∧ (specOr (.rollCall 0)).bad = none ∧ (specOr (.rollCall 0)).target = some (.loop, 0) ∧
    s.targetBusy .loop 0 = true :=
  ⟨posted_of (by decide), rfl, by decide, by decide, by decide, by decide, by decide⟩
theorem witness_RefusedOrdersChangeNothing_full :
    let s := post 0x10 [] { live with orders.inFlight := (List.range 8).map fun k => flight (k + 1) 0x30 .roster k }
    Posted s 0 (.rollCall 0) ∧ specOf (.rollCall 0) = some (specOr (.rollCall 0)) ∧ (specOr (.rollCall 0)).checkOk = true ∧
    s.running = true ∧ (specOr (.rollCall 0)).bad = none ∧ 8 ≤ s.orders.inFlight.length ∧
    (specOr (.rollCall 0)).target = some (.loop, 0) ∧ s.targetBusy .loop 0 = false :=
  ⟨posted_of (by decide), rfl, by decide, by decide, by decide, by decide, by decide, by decide⟩
theorem witness_ScanVisitTakesTheOrder_unknown :
    let s := post 0x7F [] live
    Awake s ∧ s.boardCanonical ∧ s.takeable 0 = true ∧ s.decodeOrder 0 = none :=
  ⟨awake_of (by decide), by unfold State.boardCanonical; decide, by decide, by decide⟩
theorem witness_OrderCatalogue :
    specOf (.rollCall 31) = some (specOr (.rollCall 31)) ∧ (specOr (.rollCall 31)).code ∉ [0x20, 0x51, 0x52] :=
  ⟨rfl, by decide⟩
theorem witness_ScanVisitTakesTheOrder : Posted (post 0x52 [0x54] live) 0 (.standDown 0 0x54) := posted_of (by decide)
theorem witness_SetClockAndSetPolicy_clock : Posted (post 0x60 [1, 2, 3, 4, 5, 6] live) 0 (.setClock 0 0x060504030201) := posted_of (by decide)
theorem witness_SetClockAndSetPolicy_policy :
    Posted (post 0x01 (List.replicate 22 0xFF) live) 0 (.setPolicy 0 keepPolicy) ∧ policyBad keepPolicy = none ∧
    keepPolicy.pollPeriod = 0xFFFF ∧ keepPolicy.tripCeiling = 0xFFFF ∧ keepPolicy.lostTime = 0xFFFF :=
  ⟨posted_of (by decide), by decide, by decide, by decide, by decide⟩
def head6 : HeadArgs := { address := 6, kind := 1, position := 6, count := 0, window := 2, serial := 0x106 }
theorem witness_HeadOrdersWriteTheRecord_set : let s := post 0x02 [6, 1, 6, 0, 2, 6, 1, 0, 0] mine
    Posted s 0 (.setHead 0 head6) ∧ headBad head6 = none ∧
    ((s.head 6).configured = true → (s.head 6).kind = .reader ∧ (s.head 6).serial = some 0x106 ∨ s.testOn 6 = false) ∧
    s.headAtPosition 6 6 = none ∧ s.countKind 6 .reader < 24 ∧ s.countKind 6 .refuge < 4 :=
  ⟨posted_of (by decide), by decide, by decide, by decide, by decide, by decide⟩
theorem witness_HeadOrdersWriteTheRecord_retire : let s := post 0x03 [1] mine
    Posted s 0 (.retireHead 0 1) ∧ (s.head 1).configured = true ∧ s.testOn 1 = false :=
  ⟨posted_of (by decide), by decide, by decide⟩
def channel1 (op : Nat) : ChannelArgs :=
  { index := 1, op := op, kind := 0, head := 1, slot := 1, zone := 1, zero := 400, span := 2000, gas := 250, l1 := 100, l2 := 125,
    l3 := 150, hyst := 60, window := 4 }
theorem witness_SetChannelWritesTheChannel_set :
    let s := post 0x04 [1, 1, 0, 1, 1, 1, 0x90, 1, 0xD0, 7, 250, 0, 100, 0, 125, 0, 150, 0, 60, 0, 4] mine
    Posted s 0 (.setChannel 0 (channel1 1)) ∧ channelBad (channel1 1) = none ∧
    s.heldInFlight 1 (1 :: ((s.channel? 1).map (·.head)).toList) = false ∧ thresholdsOrdered .ch4 100 125 150 = true ∧
    (s.air.channels.find? fun p => decide (p.2.head = 1) && decide (p.2.slot = 1) && !decide (p.1 = 1)) = none ∧
    (s.head 1).kind ≠ .refuge :=
  ⟨posted_of (by decide), by decide, by decide, by decide, by decide, by decide⟩
theorem witness_SetChannelWritesTheChannel_remove :
    let x := { channel1 0 with index := 0 }
    let s := post 0x04 [0, 0, 0, 1, 1, 1, 0x90, 1, 0xD0, 7, 250, 0, 100, 0, 125, 0, 150, 0, 60, 0, 4] mine
    Posted s 0 (.setChannel 0 x) ∧ channelBad x = none ∧ s.heldInFlight 0 ((s.channel? 0).map (·.head)).toList = false ∧
    (s.channel? 0).isSome = true ∧ s.tablesRising :=
  ⟨posted_of (by decide), by decide, by decide, by decide, rising_of (by decide)⟩
def zone2 : ZoneArgs :=
  { zone := 2, op := 1, kind := 0, powered := 1, vote := 1, nNeighbours := 0, neighbours := [0, 0, 0, 0], nReaders := 1,
    readers := [6, 0], nRelays := 1, relays := [(3, 1), (0, 0), (0, 0), (0, 0)], nSounders := 0, sounders := [0, 0, 0, 0] }
theorem witness_ZoneAndRefugeOrders_setZone :
    let s := post 0x05 [2, 1, 0, 1, 1, 0, 0, 0, 0, 0, 1, 6, 0, 1, 3, 1, 0, 0, 0, 0, 0, 0, 0] mine
    Posted s 0 (.setZone 0 zone2) ∧ zoneBad zone2 = none ∧ (s.zoneRec 2).inUse = false ∧ namesTwice [6] = false ∧
    namesTwice [((3, 1) : Nat × Nat)] = false ∧ s.namedElsewhere 2 [6] [] [(3, 1)] = none ∧ s.symmetricWith 2 [] = true :=
  ⟨posted_of (by decide), by decide, by decide, by decide, by decide, by decide, by decide⟩
theorem witness_ZoneAndRefugeOrders_removeZone :
    let x := { okZone with op := 0 }
    let s := post 0x05 [1, 0, 0, 0, 1] { mine with supply.phase := .setup }
    Posted s 0 (.setZone 0 x) ∧ zoneBad x = none ∧ (s.zoneRec 1).inUse = true ∧ s.running = false :=
  ⟨posted_of (by decide), by decide, by decide, by decide⟩
def refuge1 (op : Nat) : RefugeArgs := { index := 1, op := op, zone := 5, panel := 6, capacity := 20, o2 := 12, co := 13 }
theorem witness_ZoneAndRefugeOrders_setRefuge :
    let s := post 0x06 [1, 1, 5, 6, 20, 12, 13] mine
    Posted s 0 (.setRefuge 0 (refuge1 1)) ∧ refugeBad (refuge1 1) = none ∧ (s.otherRefuge 1 fun r => decide (r.zone = 5)) = none ∧
    (s.otherRefuge 1 fun r => decide (r.panel = 6)) = none ∧ (s.refuge? 1).map (·.panel) ≠ some 6 :=
  ⟨posted_of (by decide), by decide, by decide, by decide, by decide⟩
theorem witness_ZoneAndRefugeOrders_removeRefuge :
    let x := { refuge1 0 with index := 0 }
    let s := post 0x06 [0, 0, 5, 6, 20, 12, 13] mine
    Posted s 0 (.setRefuge 0 x) ∧ refugeBad x = none ∧ (s.refuge? 0).isSome = true ∧ s.tablesRising :=
  ⟨posted_of (by decide), by decide, by decide, rising_of (by decide)⟩
theorem witness_RosterAndVehicleOrders_setMiner :
    let s := post 0x07 [255, 1, 8, 0, 0, 13, 0] mine
    Posted s 0 (.setRosterEntry 0 255 1 8 13) ∧ rosterBad 255 1 8 13 = none ∧
    (∀ e ∈ s.orders.inFlight, ¬(e.target = .roster ∧ e.index = 255)) ∧
    (s.people.roster.find? fun p => decide (p.2.tag = 8) && !decide (p.1 = 255)) = none :=
  ⟨posted_of (by decide), by decide, by decide, by decide⟩
theorem witness_RosterAndVehicleOrders_sameMiner :
    let s := post 0x07 [3, 1, 7, 0, 0, 99, 0] mine
    Posted s 0 (.setRosterEntry 0 3 1 7 99) ∧ rosterBad 3 1 7 99 = none ∧
    (∀ e ∈ s.orders.inFlight, ¬(e.target = .roster ∧ e.index = 3)) ∧
    (s.people.roster.find? fun p => decide (p.2.tag = 7) && !decide (p.1 = 3)) = none ∧ s.miner? 3 = some miner7 ∧ miner7.tag = 7 :=
  ⟨posted_of (by decide), by decide, by decide, by decide, by decide, by decide⟩
theorem witness_RosterAndVehicleOrders_removeMiner :
    let s := post 0x07 [3, 0, 7, 0, 0, 13, 0] mine
    Posted s 0 (.setRosterEntry 0 3 0 7 13) ∧ rosterBad 3 0 7 13 = none ∧
    (∀ e ∈ s.orders.inFlight, ¬(e.target = .roster ∧ e.index = 3)) ∧ (s.miner? 3).isSome = true ∧ s.tablesRising :=
  ⟨posted_of (by decide), by decide, by decide, by decide, rising_of (by decide)⟩
def vehicle6 (i op : Nat) : VehicleArgs := { index := i, op := op, tag := 0x800006, number := 4, drive := 1 }
theorem witness_RosterAndVehicleOrders_setVehicle :
    let s := post 0x08 [23, 1, 6, 0, 0x80, 4, 1] mine
    Posted s 0 (.setVehicle 0 (vehicle6 23 1)) ∧ vehicleBad (vehicle6 23 1) = none ∧
    (s.haul.vehicles.find? fun p => decide (p.2.tag = 0x800006) && !decide (p.1 = 23)) = none :=
  ⟨posted_of (by decide), by decide, by decide⟩
theorem witness_RosterAndVehicleOrders_sameVehicle :
    let x := { vehicle6 2 1 with tag := 0x800005 }
    let s := post 0x08 [2, 1, 5, 0, 0x80, 4, 1] mine
    Posted s 0 (.setVehicle 0 x) ∧ vehicleBad x = none ∧
    (s.haul.vehicles.find? fun p => decide (p.2.tag = 0x800005) && !decide (p.1 = 2)) = none ∧ s.vehicle? 2 = some vehicle5 ∧
    vehicle5.tag = x.tag := ⟨posted_of (by decide), by decide, by decide, by decide, by decide⟩
theorem witness_RosterAndVehicleOrders_removeVehicle :
    let s := post 0x08 [2, 0, 6, 0, 0x80, 4, 1] mine
    Posted s 0 (.setVehicle 0 (vehicle6 2 0)) ∧ vehicleBad (vehicle6 2 0) = none ∧ (s.vehicle? 2).isSome = true ∧ s.tablesRising :=
  ⟨posted_of (by decide), by decide, by decide, rising_of (by decide)⟩
theorem witness_PatternAndInputOrders_pattern :
    let x : PatternArgs := { index := 6, onTime := 0, offTime := 255, duty := 3, repeats := 15 }
    Posted (post 0x09 [6, 0, 255, 3, 15] live) 0 (.setPattern 0 x) ∧ patternBad x = none := ⟨posted_of (by decide), by decide⟩
theorem witness_PatternAndInputOrders_input :
    let x : InputArgs := { input := 4, mode := 1, polarity := 1, enable := 1, zone := 31, clear := 1 }
    Posted (post 0x0A [4, 1, 1, 1, 31, 1] live) 0 (.setInput 0 x) ∧ inputBad x = none := ⟨posted_of (by decide), by decide⟩
theorem witness_StartDistrictEntersRunning_ok :
    let s := post 0x0F [] { quietSetup with supply.retained.latches := [31], supply.retained.evacActive := true }
    Posted s 0 (.startDistrict 0) ∧ s.running = false ∧ s.setupFault = none := ⟨posted_of (by decide), by decide, by decide⟩
theorem witness_StartDistrictEntersRunning_bad :
    let s := post 0x0F [] { mine with supply.phase := .setup }
    Posted s 0 (.startDistrict 0) ∧ s.running = false ∧ s.setupFault.isSome = true := ⟨posted_of (by decide), by decide, by decide⟩
theorem witness_StartDistrictEntersRunning_running :
    Posted (post 0x0F [] live) 0 (.startDistrict 0) ∧ (post 0x0F [] live).running = true := ⟨posted_of (by decide), by decide⟩
theorem witness_StartDistrictEntersRunning_rising :
    mine.tablesRising ∧ risingFrom 0 mine.zone.zones = true ∧ risingFrom 0 mine.loop.heads = true :=
  ⟨rising_of (by decide), by decide, by decide⟩
/-- A setup for each of the eight checks that fails it, with the values the check gives (R178). -/
theorem witness_StartDistrictEntersRunning_checks :
    let used : Zone := { Zone.blank with inUse := true, vote := 1 }
    let panel := (4, onlineHead .refuge 4 0 104)
    { quietSetup with zone.zones := [(1, { used with neighbours := [2] })] }.setupFault = some (1, 1, 2) ∧
    { quietSetup with air.channels := [(95, ch4)] }.setupFault = some (2, 95, 0) ∧
    { quietSetup with zone.zones := [(31, { used with powered := true })] }.setupFault = some (3, 31, 0) ∧
    { quietSetup with zone.zones := [(1, { used with readers := [63] })] }.setupFault = some (4, 1, 63) ∧
    { quietSetup with route.refuges := [(3, refuge0)] }.setupFault = some (5, 3, 0) ∧
    { quietSetup with loop.heads := [(63, onlineHead .reader 63 0 1)] }.setupFault = some (6, 63, 0) ∧
    { quietSetup with supply.in4.enabled := true }.setupFault = some (7, 0xFF, 0) ∧
    { quietSetup with loop.heads := [panel], zone.zones := [(3, { used with kind := .refuge })], route.refuges := [(0, refuge0)] }.setupFault
      = some (8, 0, 0) := by decide
theorem witness_LoopOrdersEnter_rollCall :
    let s := post 0x10 [] mine
    Posted s 0 (.rollCall 0) ∧ s.loop.rollCall = none ∧ (∀ e ∈ s.orders.inFlight, e.target ≠ .loop) ∧ s.orders.inFlight.length < 8 :=
  ⟨posted_of (by decide), by decide, by decide, by decide⟩
theorem witness_LoopOrdersEnter_assign :
    let s := post 0x11 [0xFE, 0xFF, 0xFF, 0xFF, 63] mine
    Posted s 0 (.assignAddress 0 0xFFFFFFFE 63) ∧ s.loop.rollCall = none ∧ (∀ e ∈ s.orders.inFlight, e.target ≠ .loop) ∧
    s.orders.inFlight.length < 8 ∧ (s.head 63).link ≠ .online :=
  ⟨posted_of (by decide), by decide, by decide, by decide, by decide⟩
def trippedZone : State :=
  { live with
    zone.zones := [(5, { Zone.blank with inUse := true, kind := .roadway, vote := 1, trip := .tripped, cause := some .gas })]
    supply.retained.latches := [5] }
theorem witness_ZoneServiceOrders_clearTrip :
    let s := post 0x20 [5, 0x61] trippedZone
    Posted s 0 (.clearTrip 0 5 0x61) ∧ s.running = true ∧ crc8 [0x20#8, BitVec.ofNat 8 5] = BitVec.ofNat 8 0x61 ∧
    s.latched 5 = true ∧ s.evac.state = .quiet ∧ ¬((s.zoneRec 5).cause = some .external ∧ s.supply.in4.status = true) ∧
    (s.zoneRec 5).powered = false ∧ (∀ c ∈ s.zoneChannels 5, c.kind = .ch4 → s.healthy c = true → c.level = 0) ∧ s.relaySafe ∧
    s.externalTrip 5 = false ∧ s.noTests ∧ 1 ≤ (s.zoneRec 5).vote :=
  ⟨posted_of (by decide), by decide, test_crc8_clear_trip, by decide, by decide, by decide, by decide, by decide,
    relaySafe_of (by decide), by decide, noTests_of (by decide), by decide⟩
theorem witness_TestsBegin_bump :
    let s := post 0x21 [0, 100, 0, 0xF4, 1, 10, 0] mine
    Posted s 0 (.bumpTest 0 0 100 500 10) ∧ s.running = true ∧ s.noTests ∧ 500 ≤ ch4.kind.fullScale ∧ s.channel? 0 = some ch4 ∧
    s.linked ch4 = true ∧ ch4.state.healthy = true ∧ s.targetBusy .channel 0 = false ∧ s.coverSpare [0] :=
  ⟨posted_of (by decide), by decide, noTests_of (by decide), by decide, by decide, by decide, by decide, by decide,
    spare_of (by decide)⟩
theorem witness_TestsBegin_calibrate :
    let s := post 0x23 [0, 1, 0xF4, 1] mine
    Posted s 0 (.calibrate 0 0 1 500) ∧ s.running = true ∧ s.noTests ∧ s.channel? 0 = some ch4 ∧ s.linked ch4 = true ∧
    ch4.state ≠ .recovery ∧ s.targetBusy .channel 0 = false ∧ s.coverSpare [0] :=
  ⟨posted_of (by decide), by decide, noTests_of (by decide), by decide, by decide, by decide, by decide,
    spare_of (by decide)⟩
theorem witness_TestsBegin_selfCheck :
    let s := post 0x22 [1, 14] mine
    Posted s 0 (.selfCheck 0 1 14) ∧ s.running = true ∧ s.noTests ∧ s.isKind 1 .gas = true ∧ s.headOnline 1 = true ∧
    (∀ i ∈ s.attachedTo 1, (s.channel? i).map (·.state) ≠ some .recovery) ∧ s.targetBusy .head 1 = false ∧
    s.coverSpare (s.attachedTo 1) ∧ s.tablesRising :=
  ⟨posted_of (by decide), by decide, noTests_of (by decide), by decide, by decide, by decide, by decide,
    spare_of (by decide), rising_of (by decide)⟩
theorem witness_TestsBegin_skipped : Posted (post 0x22 [1, 15] mine) 0 (.selfCheck 0 1 15) := posted_of (by decide)
theorem witness_PagesAndCalls_page :
    let s := post 0x30 [3, 63, 1, 0x84, 3] mine
    Posted s 0 (.page 0 3 63 1 900) ∧ s.running = true ∧ s.miner? 3 = some miner7 ∧ miner7.state ≠ .unseen ∧ miner7.state ≠ .out ∧
    s.targetBusy .roster 3 = false ∧ s.orders.inFlight.length < 8 :=
  ⟨posted_of (by decide), by decide, by decide, by decide, by decide, by decide, by decide⟩
theorem witness_PagesAndCalls_answer :
    let m := { miner7 with call := some .help, callTime := some 9 }
    let s := post 0x31 [3, 63] { mine with people.roster := [(3, m)] }
    Posted s 0 (.answerCall 0 3 63) ∧ s.running = true ∧ s.miner? 3 = some m ∧ m.call = some .help :=
  ⟨posted_of (by decide), by decide, by decide, by decide⟩
theorem witness_RosterAndVehicleOrders_command :
    let s := post 0x32 [2, 3] mine
    Posted s 0 (.commandVehicle 0 2 3) ∧ s.running = true ∧ s.vehicle? 2 = some vehicle5 :=
  ⟨posted_of (by decide), by decide, by decide⟩
theorem witness_ZoneServiceOrders_block : Posted (post 0x40 [1] mine) 0 (.blockZone 0 1) ∧ ((post 0x40 [1] mine).zoneRec 1).inUse = true :=
  ⟨posted_of (by decide), by decide⟩
theorem witness_ZoneServiceOrders_open : Posted (post 0x41 [1] mine) 0 (.openZone 0 1) ∧ ((post 0x41 [1] mine).zoneRec 1).inUse = true :=
  ⟨posted_of (by decide), by decide⟩
theorem witness_EvacuationOrders_start :
    Posted (post 0x50 [1, 255] mine) 0 (.startEvacuation 0 1 255) ∧ (post 0x50 [1, 255] mine).running = true ∧
    (post 0x50 [1, 255] mine).evac.state = .quiet := ⟨posted_of (by decide), by decide, by decide⟩
theorem witness_EvacuationOrders_busy :
    let s := post 0x50 [0, 0] { mine with evac.state := .overdue }
    Posted s 0 (.startEvacuation 0 0 0) ∧ s.evac.state ≠ .quiet ∧ s.evac.state ≠ .asking := ⟨posted_of (by decide), by decide, by decide⟩
theorem witness_EvacuationOrders_decline :
    let c := (crc8 [0x51#8]).toNat
    let s := post 0x51 [c] { live with evac.state := .asking, evac.askingZone := some 31, evac.askTimer := some ⟨0, 60000⟩ }
    Posted s 0 (.declineEvacuation 0 c) ∧ s.running = true ∧ crc8 [0x51#8] = BitVec.ofNat 8 c ∧ s.evac.state = .asking ∧
    s.evac.askingZone = some 31 ∧ s.evac.overlay = .none :=
  ⟨posted_of (by decide), by decide, by decide, by decide, by decide, by decide⟩
theorem witness_EvacuationOrders_standDown :
    let s := post 0x52 [0x54] { live with evac.state := .mustering, evac.overlay := .evacuate, evac.vehicleFlag := true }
    Posted s 0 (.standDown 0 0x54) ∧ s.running = true ∧ crc8 [0x52#8] = BitVec.ofNat 8 0x54 ∧ s.evac.state ≠ .quiet ∧
    (s.evac.drill = true ∨ ∀ z ∈ s.zonesInUse, (s.zoneRec z).evacGas = false) ∧ s.noTests ∧ s.airCurrent :=
  ⟨posted_of (by decide), by decide, by decide, by decide, by decide, noTests_of (by decide), airCurrent_of (by decide)⟩
theorem witness_EvacuationOrders_mark :
    let m := { miner7 with muster := .required }
    let s := post 0x53 [3] { mine with people.roster := [(3, m)], evac.state := .mustering, evac.unaccounted := 1, evac.required := 1 }
    Posted s 0 (.markAccounted 0 3) ∧ s.running = true ∧ s.miner? 3 = some m ∧ m.muster = .required :=
  ⟨posted_of (by decide), by decide, by decide, by decide⟩


/-- CANCEL of slot 31 is posted while an entry of slot 31 is in flight. -/
def cancelling (e : InFlight) (s : State) : State :=
  post 0x61 [31] ({ s with orders.inFlight := [e] }.writeSlot 31 0 [handTaken])
theorem waiting_of {s : State} {e : InFlight} {code i : Nat} {k : TargetKind} (h0 : s.inFlight? code k i = some e)
    (h1 : (decide (s.handOver e.slot = handTaken) && decide (s.slotTake e.slot = e.take) && Memory.wf s.port.board
      && s.orders.inFlight.all fun x => decide (x = e)) = true) : Waiting s e code k i := by
  simp only [Bool.and_eq_true, decide_eq_true_eq, List.all_eq_true] at h1
  obtain ⟨⟨⟨a, b⟩, c⟩, d⟩ := h1
  exact ⟨h0, a, b, fun x hx _ => d x hx, c⟩
def bump0 : BumpRec := { a := 100, b := 200, start := 0, length := 10000, timeAtA := none, extreme := 0, highest := 0 }
def check0 : CheckRec := { skip := 0, primed := true, step := some 4, timer := some 0, values := [] }
def page0 : PageRec := { take := 0, message := 1, ack := true, start := 0, length := 30000, deliveries := 0, reader := none }
theorem witness_CancelsAndOrphans_late : let s := post 0x61 [31] mine
    Posted s 0 (.cancel 0 31) ∧ s.handOver 31 ≠ handTaken := ⟨posted_of (by decide), by decide⟩
theorem witness_CancelsAndOrphans_assignment :
    let e := flight 31 0x11 .loop 0
    let s := cancelling e { mine with loop.assignment := some { serial := 1, target := 6, begun := false, rounds := 0 } }
    Posted s 0 (.cancel 0 31) ∧ Waiting s e e.code .loop 0 ∧ e.slot = 31 ∧ e.code = 0x11 :=
  ⟨posted_of (by decide), waiting_of (by decide) (by decide), by decide, by decide⟩
theorem witness_CancelsAndOrphans_rollCall :
    let e := flight 31 0x10 .loop 0
    let rc : RollCall := { automatic := false, begun := true, address := 63, tries := [] }
    let s := cancelling e { mine with loop.rollCall := some rc }
    Posted s 0 (.cancel 0 31) ∧ Waiting s e e.code .loop 0 ∧ s.loop.rollCall = some rc ∧ rc.automatic = false :=
  ⟨posted_of (by decide), waiting_of (by decide) (by decide), by decide, by decide⟩
theorem witness_CancelsAndOrphans_bump :
    let e := flight 31 0x21 .channel 0
    let s := cancelling e { mine with tests.bumps := [(0, bump0)] }
    Posted s 0 (.cancel 0 31) ∧ Waiting s e e.code .channel 0 ∧ lookupAt s.tests.bumps 0 = some bump0 :=
  ⟨posted_of (by decide), waiting_of (by decide) (by decide), by decide⟩
theorem witness_CancelsAndOrphans_calibrate :
    let e := flight 31 0x23 .channel 0
    let c : CalRec := { span := true, gas := 250, samples := [400] }
    let s := cancelling e { mine with tests.cals := [(0, c)] }
    Posted s 0 (.cancel 0 31) ∧ Waiting s e e.code .channel 0 ∧ lookupAt s.tests.cals 0 = some c :=
  ⟨posted_of (by decide), waiting_of (by decide) (by decide), by decide⟩
theorem witness_CancelsAndOrphans_selfCheck :
    let e := flight 31 0x22 .head 1
    let s := cancelling e { mine with tests.checks := [(1, check0)] }
    Posted s 0 (.cancel 0 31) ∧ Waiting s e e.code .head 1 ∧ lookupAt s.tests.checks 1 = some check0 :=
  ⟨posted_of (by decide), waiting_of (by decide) (by decide), by decide⟩
theorem witness_CancelsAndOrphans_page :
    let e := flight 31 0x30 .roster 3
    let s := cancelling e { mine with people.pages := [(3, page0)] }
    Posted s 0 (.cancel 0 31) ∧ Waiting s e e.code .roster 3 ∧ lookupAt s.people.pages 3 = some page0 ∧ s.miner? 3 = some miner7 :=
  ⟨posted_of (by decide), waiting_of (by decide) (by decide), by decide, by decide⟩
theorem witness_CancelsAndOrphans_orphan :
    mine.active = true ∧ mine.port.badBytes = [] ∧ mine.handOver (flight 31 0x30 .roster 3).slot ≠ handTaken := by decide

/-! ### Witnesses: refusals by an order's owner. Each case meets Refuses' first two premises (askedOk), and the check it names is the
first of its order's own that fails. -/

def askedOk (n : Nat) (i : Instr) (s : State) : Bool := postedOk n i s && decide ((specOf i).map (·.bad) = some none)
theorem asked_of {n : Nat} {i : Instr} {s : State} (h : askedOk n i s = true) :
    Posted s n i ∧ (specOf i).map (·.bad) = some none := by
  simp only [askedOk, Bool.and_eq_true, decide_eq_true_eq] at h
  exact ⟨posted_of h.1, h.2⟩
/-- Channel 0 in a bump test whose order is in flight from slot 31. -/
def bumping : State :=
  { mine with air.channels := [(0, { ch4 with state := .bump })], tests.bumps := [(0, bump0)]
              orders.inFlight := [flight 31 0x21 .channel 0] }
theorem witness_RefusedOrdersChangeNothing_setHead :
    (let x : HeadArgs := { address := 1, kind := 0, position := 1, count := 1, window := 2, serial := 999 }
     let s := post 0x02 [1, 0, 1, 1, 2, 0xE7, 3, 0, 0] bumping
     askedOk 0 (.setHead 0 x) s = true ∧ (s.head 1).configured = true ∧ (s.head 1).serial = some 101 ∧ s.testOn 1 = true) ∧
    (let s := post 0x02 [6, 1, 5, 0, 2, 6, 1, 0, 0] mine
     askedOk 0 (.setHead 0 { head6 with position := 5 }) s = true ∧ s.testOn 6 = false ∧ s.headAtPosition 6 5 = some 5) := by decide
theorem witness_RefusedOrdersChangeNothing_headsFull :
    (let s := post 0x02 [6, 1, 6, 0, 2, 6, 1, 0, 0] { live with
       loop.heads := (List.range' 10 24).map fun k => (k, onlineHead .reader k 0 k) }
     askedOk 0 (.setHead 0 head6) s = true ∧ s.headAtPosition 6 6 = none ∧ s.countKind 6 .reader = 24) ∧
    (let s := post 0x02 [6, 3, 6, 0, 2, 6, 1, 0, 0] { live with
       loop.heads := (List.range' 60 4).map fun k => (k, onlineHead .refuge k 0 k) }
     askedOk 0 (.setHead 0 { head6 with kind := 3 }) s = true ∧ s.headAtPosition 6 6 = none ∧ s.countKind 6 .refuge = 4) := by decide
theorem witness_RefusedOrdersChangeNothing_retireHead :
    (let s := post 0x03 [63] mine
     askedOk 0 (.retireHead 0 63) s = true ∧ (s.head 63).configured = false) ∧
    (let s := post 0x03 [1] bumping
     askedOk 0 (.retireHead 0 1) s = true ∧ (s.head 1).configured = true ∧ s.testOn 1 = true) := by decide
theorem witness_RefusedOrdersChangeNothing_setChannel :
    let bytes (l2 : Nat) (s : State) := post 0x04 [1, 1, 0, 1, 1, 1, 0x90, 1, 0xD0, 7, 250, 0, 100, 0, l2, 0, 150, 0, 60, 0, 4] s
    let x := channel1 1
    let taken : State := { mine with air.channels := [(0, ch4), (95, { ch4 with slot := 1 })] }
    askedOk 0 (.setChannel 0 { x with l2 := 151 }) (bytes 151 mine) = true ∧ thresholdsOrdered .ch4 100 151 150 = false ∧
    askedOk 0 (.setChannel 0 x) (bytes 125 taken) = true ∧
    (taken.air.channels.find? fun p => decide (p.2.head = 1) && decide (p.2.slot = 1) && !decide (p.1 = 1)).map Prod.fst = some 95 := by
  decide
theorem witness_RefusedOrdersChangeNothing_setChannelBusy :
    let x := { channel1 1 with index := 0, slot := 0 }
    let s := post 0x04 [0, 1, 0, 1, 0, 1, 0x90, 1, 0xD0, 7, 250, 0, 100, 0, 125, 0, 150, 0, 60, 0, 4] bumping
    askedOk 0 (.setChannel 0 x) s = true ∧ s.heldInFlight 0 [1, 1] = true := by decide
theorem witness_RefusedOrdersChangeNothing_setChannelSpan :
    let x := { channel1 1 with span := 463 }
    let s := post 0x04 [1, 1, 0, 1, 1, 1, 0x90, 1, 0xCF, 1, 250, 0, 100, 0, 125, 0, 150, 0, 60, 0, 4] mine
    askedOk 0 (.setChannel 0 x) s = true ∧ x.span < x.zero + 64 ∧ s.heldInFlight 1 [1] = false := by decide
theorem witness_RefusedOrdersChangeNothing_setChannelPanel :
    let x := { channel1 1 with head := 4, slot := 2 }
    let s := post 0x04 [1, 1, 0, 4, 2, 1, 0x90, 1, 0xD0, 7, 250, 0, 100, 0, 125, 0, 150, 0, 60, 0, 4] mine
    askedOk 0 (.setChannel 0 x) s = true ∧ (s.head 4).configured = true ∧ (s.head 4).kind = .refuge := by decide
theorem witness_RefusedOrdersChangeNothing_removeChannel :
    let x : ChannelArgs := { index := 95, op := 0, kind := 0, head := 0, slot := 0, zone := 0, zero := 0, span := 0, gas := 0, l1 := 0
                             l2 := 0, l3 := 0, hyst := 0, window := 0 }
    let s := post 0x04 [95] mine
    askedOk 0 (.setChannel 0 x) s = true ∧ s.heldInFlight 95 [] = false ∧ s.channel? 95 = none := by decide
def zoneBytes (x : ZoneArgs) : List Nat :=
  [x.zone, x.op, x.kind, x.powered, x.vote, x.nNeighbours] ++ x.neighbours ++ [x.nReaders] ++ x.readers ++ [x.nRelays]
    ++ (x.relays.flatMap fun p => [p.1, p.2]) ++ [x.nSounders] ++ x.sounders
def askedZone (x : ZoneArgs) (s : State) : Bool := askedOk 0 (.setZone 0 x) (post 0x05 (zoneBytes x) s)
theorem witness_RefusedOrdersChangeNothing_removeZone :
    let x := { okZone with op := 0 }
    askedZone { x with zone := 31 } mine = true ∧ (mine.zoneRec 31).inUse = false ∧ askedZone x mine = true ∧ mine.running = true ∧
    (mine.zoneRec 1).inUse = true := by decide
theorem witness_RefusedOrdersChangeNothing_setZone :
    let two := { zone2 with nNeighbours := 2, neighbours := [31, 31, 0, 0] }
    askedZone { okZone with kind := 2 } mine = true ∧ (mine.zoneRec 1).kind = .roadway ∧ (ZoneKind.ofCode 2) ≠ .roadway ∧
    askedZone { two with neighbours := [31, 2, 0, 0] } mine = true ∧ (mine.zoneRec 2).inUse = false ∧ askedZone two mine = true ∧
    askedZone { zone2 with nReaders := 2, readers := [6, 6] } mine = true ∧
    askedZone { zone2 with nSounders := 2, sounders := [7, 7, 0, 0] } mine = true ∧
    askedZone { zone2 with nRelays := 2, relays := [(3, 1), (3, 1), (0, 0), (0, 0)] } mine = true ∧
    askedZone { zone2 with powered := 0 } mine = true := by decide
theorem witness_RefusedOrdersChangeNothing_setZoneElsewhere :
    askedZone { zone2 with readers := [2, 0] } mine = true ∧ mine.namedElsewhere 2 [2] [] [(3, 1)] = some 1 ∧
    askedZone { zone2 with nNeighbours := 1, neighbours := [1, 0, 0, 0] } mine = true ∧ mine.namedElsewhere 2 [6] [] [(3, 1)] = none ∧
    mine.symmetricWith 2 [1] = false := by decide
theorem witness_RefusedOrdersChangeNothing_setRefuge :
    (let s := post 0x06 [3, 0] mine
     askedOk 0 (.setRefuge 0 { index := 3, op := 0, zone := 0, panel := 0, capacity := 0, o2 := 0, co := 0 }) s = true ∧
     s.refuge? 3 = none) ∧
    (let x := { refuge1 1 with co := 12 }
     askedOk 0 (.setRefuge 0 x) (post 0x06 [1, 1, 5, 6, 20, 12, 12] mine) = true ∧ x.o2 = x.co) ∧
    (let s := post 0x06 [1, 1, 3, 6, 20, 12, 13] mine
     askedOk 0 (.setRefuge 0 { refuge1 1 with zone := 3 }) s = true ∧ (s.otherRefuge 1 fun r => decide (r.zone = 3)) = some 0) ∧
    (let s := post 0x06 [1, 1, 5, 4, 20, 12, 13] mine
     askedOk 0 (.setRefuge 0 { refuge1 1 with panel := 4 }) s = true ∧ (s.otherRefuge 1 fun r => decide (r.zone = 5)) = none ∧
     (s.otherRefuge 1 fun r => decide (r.panel = 4)) = some 0) := by decide
theorem witness_RefusedOrdersChangeNothing_setRosterEntry :
    (let s := post 0x07 [3, 0] { mine with orders.inFlight := [flight 31 0x30 .roster 3] }
     askedOk 0 (.setRosterEntry 0 3 0 0 0) s = true ∧ s.orders.inFlight = [flight 31 0x30 .roster 3]) ∧
    (let s := post 0x07 [255, 0] mine
     askedOk 0 (.setRosterEntry 0 255 0 0 0) s = true ∧ s.orders.inFlight = [] ∧ s.miner? 255 = none) ∧
    (let s := post 0x07 [255, 1, 7, 0, 0, 13, 0] mine
     askedOk 0 (.setRosterEntry 0 255 1 7 13) s = true ∧
     (s.people.roster.find? fun p => decide (p.2.tag = 7) && !decide (p.1 = 255)).map Prod.fst = some 3) := by decide
theorem witness_RefusedOrdersChangeNothing_setVehicle :
    (let s := post 0x08 [23, 0] mine
     askedOk 0 (.setVehicle 0 { index := 23, op := 0, tag := 0, number := 0, drive := 0 }) s = true ∧ s.vehicle? 23 = none) ∧
    (let s := post 0x08 [23, 1, 5, 0, 0x80, 4, 1] mine
     askedOk 0 (.setVehicle 0 { vehicle6 23 1 with tag := 0x800005 }) s = true ∧
     (s.haul.vehicles.find? fun p => decide (p.2.tag = 0x800005) && !decide (p.1 = 23)).map Prod.fst = some 2) := by decide
theorem witness_RosterAndVehicleOrders_noVehicle :
    let s := post 0x32 [23, 3] mine
    askedOk 0 (.commandVehicle 0 23 3) s = true ∧ s.running = true ∧ s.vehicle? 23 = none := by decide
theorem witness_LoopOrdersEnter_busy :
    let s := post 0x11 [102, 0, 0, 0, 1] mine
    askedOk 0 (.assignAddress 0 102 1) s = true ∧ s.loop.rollCall = none ∧ s.orders.inFlight = [] ∧ (s.head 1).link = .online ∧
    (s.head 1).identified = some 101 := by decide
def askedClear (r : Zone) (s : State) : Bool :=
  askedOk 0 (.clearTrip 0 5 0x61) (post 0x20 [5, 0x61] { s with zone.zones := [(5, r)] })
/-- CLEAR TRIP of zone 5: no latch, an evacuation, IN4 active, not covered, gas. The check byte is that of `test_crc8_clear_trip`. -/
theorem witness_ZoneServiceOrders_clearRefused :
    let r := trippedZone.zoneRec 5
    let gas : State := { trippedZone with
      loop.heads := [(1, onlineHead .gas 1 1 101)], air.channels := [(95, { ch4 with zone := some 5, level := 1 })] }
    askedClear r { trippedZone with supply.retained.latches := [4] } = true ∧
    askedClear r { trippedZone with evac.state := .asking } = true ∧ trippedZone.latched 5 = true ∧
    askedClear { r with cause := some .external } { trippedZone with supply.in4.status := true } = true ∧
    askedClear { r with powered := true } trippedZone = true ∧ r.covered = false ∧
    askedClear r gas = true ∧ gas.healthy { ch4 with zone := some 5, level := 1 } = true ∧ r.powered = false ∧
    trippedZone.evac.state = .quiet ∧ trippedZone.supply.in4.status = false ∧ trippedZone.running = true := by decide
theorem witness_ZoneServiceOrders_noZone :
    let s := post 0x40 [31] mine
    Posted s 0 (.blockZone 0 31) ∧ (specOf (.blockZone 0 31)).map (·.bad) = some none ∧ (s.zoneRec 31).inUse = false ∧
    askedOk 0 (.openZone 0 31) (post 0x41 [31] mine) = true :=
  ⟨(asked_of (by decide)).1, (asked_of (n := 0) (s := post 0x40 [31] mine) (by decide)).2, by decide, by decide⟩
theorem zonesIn_of {s : State} (h : (s.air.channels.all fun p => p.2.zone.all fun z => decide (z ≤ 31)) = true) :
    ∀ i c z, s.channel? i = some c → c.zone = some z → z ≤ 31 := by
  intro i c z hc hz
  have := lookupAt_all (p := fun c : Channel => c.zone.all fun z => decide (z ≤ 31)) s.air.channels i c h hc
  rw [hz] at this
  simpa using this
/-- Zone 1's relay command is CLOSED, and its one CH4 channel is healthy. -/
def guarded : State :=
  { mine with zone.zones := [(1, { closedZone.zoneRec 1 with ch4 := { configured := 1, healthy := 1, highest := 0, atL3 := 0 } })] }
def askedTest (code : Nat) (args : List Nat) (i : Instr) (s : State) : Bool :=
  askedOk 0 i (post code args s) && (s.air.channels.all fun p => p.2.zone.all fun z => decide (z ≤ 31)) && s.running
    && decide (s.orders.inFlight.length < 8)
theorem witness_TestsBegin_admission :
    askedTest 0x21 [0, 100, 0, 0xF4, 1, 10, 0] (.bumpTest 0 0 100 500 10) guarded = true ∧ guarded.targetBusy .channel 0 = false ∧
    askedTest 0x23 [0, 0] (.calibrate 0 0 0 0) guarded = true ∧ askedTest 0x22 [1, 14] (.selfCheck 0 1 14) guarded = true ∧
    guarded.targetBusy .head 1 = false ∧ guarded.attachedTo 1 = [0] ∧ guarded.channel? 0 = some ch4 ∧ guarded.linked ch4 = true ∧
    (guarded.zoneRec 1).closed = true ∧ guarded.healthy ch4 = true ∧ ((guarded.zoneRec 1).agg .ch4).healthy - 1 < 1 := by decide
theorem witness_TestsBegin_zones : ∀ i c z, guarded.channel? i = some c → c.zone = some z → z ≤ 31 := zonesIn_of (by decide)
theorem witness_TestsBegin_refused :
    let lost : State := { mine with loop.heads := [(1, { onlineHead .gas 1 1 101 with link := .suspect })] }
    let healing : State := { mine with air.channels := [(0, { ch4 with state := .recovery })] }
    askedTest 0x21 [95, 0, 0, 1, 0, 10, 0] (.bumpTest 0 95 0 1 10) mine = true ∧ mine.channel? 95 = none ∧
    askedTest 0x21 [0, 0xF5, 1, 0xF6, 1, 10, 0] (.bumpTest 0 0 501 502 10) mine = true ∧ ch4.kind.fullScale = 500 ∧
    askedTest 0x21 [0, 0, 0, 0xF5, 1, 10, 0] (.bumpTest 0 0 0 501 10) mine = true ∧
    askedTest 0x21 [0, 100, 0, 100, 0, 10, 0] (.bumpTest 0 0 100 100 10) mine = true ∧ ch4.kind.rising = true ∧
    askedTest 0x21 [0, 100, 0, 0xF4, 1, 10, 0] (.bumpTest 0 0 100 500 10) lost = true ∧ lost.linked ch4 = false ∧
    askedTest 0x23 [0, 0] (.calibrate 0 0 0 0) healing = true ∧ askedTest 0x23 [0, 1, 0xF5, 1] (.calibrate 0 0 1 501) mine = true ∧
    askedTest 0x22 [2, 0] (.selfCheck 0 2 0) mine = true ∧ mine.isKind 2 .gas = false ∧
    askedTest 0x22 [1, 0] (.selfCheck 0 1 0) lost = true ∧ lost.headOnline 1 = false ∧
    askedTest 0x22 [1, 0] (.selfCheck 0 1 0) healing = true ∧ healing.attachedTo 1 = [0] := by decide
theorem witness_PagesAndCalls_refused :
    askedOk 0 (.page 0 255 0 0 0) (post 0x30 [255] mine) = true ∧ mine.miner? 255 = none ∧ mine.targetBusy .roster 255 = false ∧
    (let s := { mine with people.roster := [(3, { miner7 with state := .out })] }
     askedOk 0 (.page 0 3 0 0 0) (post 0x30 [3] s) = true ∧ (s.miner? 3).map (·.state) = some .out) ∧
    askedOk 0 (.answerCall 0 255 0) (post 0x31 [255] mine) = true ∧ askedOk 0 (.answerCall 0 3 0) (post 0x31 [3] mine) = true ∧
    mine.miner? 3 = some miner7 ∧ miner7.call = none := by decide
theorem witness_EvacuationOrders_refused :
    let c := (crc8 [0x51#8]).toNat
    askedOk 0 (.declineEvacuation 0 c) (post 0x51 [c] mine) = true ∧ mine.evac.state = .quiet ∧
    crc8 [0x51#8] = BitVec.ofNat 8 c ∧ askedOk 0 (.standDown 0 0x54) (post 0x52 [0x54] mine) = true ∧ mine.running = true ∧
    askedOk 0 (.markAccounted 0 3) (post 0x53 [3] mine) = true ∧ miner7.muster = .notRequired ∧ mine.miner? 3 = some miner7 ∧
    askedOk 0 (.markAccounted 0 255) (post 0x53 [255] mine) = true ∧ mine.miner? 255 = none := by decide
theorem witness_EvacuationOrders_gasStands :
    let r := { Zone.blank with inUse := true, vote := 1 }
    let s := post 0x52 [0x54] { mustering with zone.zones := [(0, r), (30, { r with evacGas := true }), (31, { r with evacGas := true })] }
    askedOk 0 (.standDown 0 0x54) s = true ∧ s.running = true ∧ risingFrom 0 s.zone.zones = true ∧ s.evac.state ≠ .quiet ∧
    s.evac.drill = false ∧ 30 ∈ s.zonesInUse ∧ (s.zoneRec 30).evacGas = true ∧
    ∀ y ∈ s.zonesInUse, y < 30 → (s.zoneRec y).evacGas = false := by decide

/-! ### Witnesses: the loop -/

def emptyRound : Round :=
  { due := [], windows := .mains, overrun := false, markerOwed := false, reachedA := 0, reachedB := 64, missed := [], rollLeft := 0,
    assignEnds := [], assignCheck := false }
def polling (k : FrameKind) (a : Nat) (w : Payload) : Exchange :=
  { frame := { kind := k, address := a, toggle := false, payload := w }, purpose := .due, online := true, side := .a, retry := false, begun := false,
    garbled := false, heard := false, abandoned := false, sentAt := 99996 }
def sent (x : Exchange) : State := { mine with loop.exchange := some x, loop.round := some emptyRound }

theorem witness_RoundsAndMarkers_begins : Awake mine ∧ mine.due mine.loop.roundAt mine.supply.policy.pollPeriod = true ∧ mine.loop.round = none ∧
    mine.supply.mode = .mains ∧ mine.loop.rates = .mains ∧ (mine.head 1).configured = true ∧ mine.loop.exchange = none :=
  ⟨awake_of (by decide), by decide, by decide, by decide, by decide, by decide, by decide⟩
theorem witness_RoundsAndMarkers_overruns :
    let s := sent (polling .poll 1 .empty)
    Awake s ∧ s.due s.loop.roundAt s.supply.policy.pollPeriod = true ∧ s.loop.round = some emptyRound ∧ emptyRound.overrun = false :=
  ⟨awake_of (by decide), by decide, by decide, by decide⟩
theorem witness_RoundsAndMarkers_owed :
    let s := { mine with loop.exchange := some (polling .poll 1 .empty) }
    Awake s ∧ s.due s.loop.roundAt s.supply.policy.pollPeriod = true ∧ s.loop.round = none ∧ s.loop.exchange ≠ none :=
  ⟨awake_of (by decide), by decide, by decide, by decide⟩
theorem witness_LoopFramesAreSent_poll :
    let s := { mine with loop.round := some { emptyRound with due := [3] } }
    Awake s ∧ s.nextWork = .poll 3 .due ∧ (s.head 3).kind = .relay := ⟨awake_of (by decide), by decide, by decide⟩
theorem witness_LoopFramesAreSent_sounder :
    let s := { mine with loop.round := some { emptyRound with due := [5] } }
    Awake s ∧ s.nextWork = .poll 5 .due ∧ (s.head 5).kind = .sounder := ⟨awake_of (by decide), by decide, by decide⟩
theorem witness_LoopFramesAreSent_order :
    { mine with loop.continuation := some (2, 3) }.loop.exchange = none ∧
    (let s := { mine with loop.marks := [5] }
     s.loop.continuation = none ∧ 5 ∈ s.loop.marks ∧ s.headOnline 5 = true ∧ ∀ b ∈ s.loop.marks, b = 5) ∧
    (let r := { emptyRound with due := [60, 3] }
     r.due = [60] ++ 3 :: [] ∧ (mine.head 60).configured = false ∧ (mine.head 3).configured = true ∧ (mine.head 3).link = .online) ∧
    (let s := { mine with loop.heads := [(6, { onlineHead .reader 6 0 106 with link := .suspect })] }
     (s.head 6).configured = true ∧ (s.head 6).link = .suspect) ∧
    (∀ a ∈ mine.loop.marks, ¬((mine.head a).configured = true ∧ (mine.head a).link = .online)) ∧ mine.loop.continuation = none ∧
    mine.loop.round = none ∧ (∀ b ∈ emptyRound.due, (mine.head b).configured = false) ∧ emptyRound.assignEnds = [] := by decide
theorem witness_LoopFramesAreSent_kinds :
    let next (a : Nat) := ({ mine with loop.round := some { emptyRound with due := [a] } } : State).nextWork
    next 1 = .poll 1 .due ∧ (mine.head 1).kind = .gas ∧ lookupAt mine.tests.checks 1 = none ∧ next 2 = .poll 2 .due ∧
    (mine.head 2).kind = .reader ∧ next 4 = .poll 4 .due ∧ (mine.head 4).kind = .refuge ∧
    mine.zone.zones.find? (fun z => z.2.inUse && z.2.sounders.contains 5) ≠ none ∧ (mine.choice 1).pattern = none := by decide
theorem witness_LoopFramesAreSent_digits :
    let s := { mine with air.channels := [(10, { ch4 with mean := some 123 }), (11, { ch4 with kind := .o2, mean := some 209 })] }
    s.nextWork = .none ∧ (s.head 4).kind = .refuge ∧ (s.route.refuges.find? fun x => decide (x.2.panel = 4)) = some (0, refuge0) ∧
    (∃ c, s.channel? 10 = some c ∧ s.healthy c = true ∧ c.mean = some 123 ∧ c.kind = .ch4) ∧ mine.channel? 10 = none := by
  refine ⟨by decide, by decide, by decide, ⟨_, rfl, ?_⟩, by decide⟩; decide
theorem witness_LoopFramesAreSent_identify :
    let s := { mine with loop.rollCall := some { automatic := true, begun := true, address := 63, tries := [] },
                         loop.round := some { emptyRound with rollLeft := 1 } }
    Awake s ∧ s.nextWork = .identify 63 .rollCall := ⟨awake_of (by decide), by decide⟩
theorem witness_LoopFramesAreSent_assign :
    let s := { mine with loop.assignment := some { serial := 1, target := 6, begun := true, rounds := 1 },
                         loop.round := some { emptyRound with assignEnds := [.a, .b] } }
    Awake s ∧ s.nextWork = .assign .a ∧ s.loop.assignment = some { serial := 1, target := 6, begun := true, rounds := 1 } :=
  ⟨awake_of (by decide), by decide, by decide⟩
theorem witness_FailedTriesAndMissedPolls_first :
    let x := polling .poll 1 .empty
    Awake (sent x) ∧ (sent x).loop.exchange = some x ∧ x.frame.kind = .poll ∧ x.retry = false ∧ x.abandoned = false ∧
    (sent x).due x.sentAt 4 = true ∧ x.begun = false ∧ elapsed (sent x).now x.sentAt ≤ 4 :=
  ⟨awake_of (by decide), by decide, by decide, by decide, by decide, by decide, by decide, by decide⟩
theorem witness_FailedTries_late :
    let x := { polling .identify 1 .empty with sentAt := 99995, begun := true }
    Awake (sent x) ∧ (sent x).loop.exchange = some x ∧ x.frame.kind = .identify ∧ x.begun = true ∧ 4 < elapsed (sent x).now x.sentAt :=
  ⟨awake_of (by decide), by decide, by decide, by decide, by decide⟩
theorem witness_FailedTriesAndMissedPolls_second :
    let x := { polling .poll 1 .empty with retry := true }
    Awake (sent x) ∧ (sent x).loop.exchange = some x ∧ x.purpose = .due ∧ x.retry = true ∧ x.abandoned = false ∧
    ((sent x).head 1).link ≠ .clash ∧ ((sent x).head 1).link ≠ .unconfigured ∧
    (sent x).loop.round = some emptyRound ∧ emptyRound.markerOwed = false ∧ (sent x).due x.sentAt 4 = true ∧ x.begun = false :=
  ⟨awake_of (by decide), by decide, by decide, by decide, by decide, by decide, by decide, by decide, by decide, by decide, by decide⟩
theorem witness_RoundsAndMarkers_marker :
    let x := { polling .marker 0 .empty with purpose := .marker }
    Awake (sent x) ∧ (sent x).loop.exchange = some x ∧ x.frame.kind = .marker ∧ x.heard = false ∧ (sent x).due x.sentAt 4 = true ∧
    (sent x).loop.round = some emptyRound ∧ emptyRound.markerOwed = false :=
  ⟨awake_of (by decide), by decide, by decide, by decide, by decide, by decide, by decide⟩
theorem witness_RoundsAndMarkers_other :
    let x := polling .poll 1 .empty
    Awake (sent x) ∧ (sent x).loop.exchange = some x ∧ x.frame.kind ≠ .marker := ⟨awake_of (by decide), by decide, by decide⟩
theorem witness_WrongRepliesAreGarbled :
    let x := polling .poll 1 .empty
    (sent x).loop.exchange = some x ∧ x.frame.kind = .poll ∧ { okHead with address := 63 }.address ≠ x.frame.address ∧
    { okHead with toggle := true }.toggle ≠ x.frame.toggle ∧ ((sent x).head 1).kind = .gas ∧ ((sent x).head 1).count ≠ 0 ∧
    ((sent (polling .poll 3 .empty)).head 3).kind = .relay ∧ ((sent (polling .poll 3 .empty)).head 3).count ≠ 2 := by decide
theorem witness_WrongRepliesAreGarbled_identify :
    (sent (polling .identify 1 .empty)).loop.exchange = some (polling .identify 1 .empty) ∧
    (polling .identify 1 .empty).frame.kind = .identify ∧ { okHead with address := 0 }.address ≠ (1 : Nat) := by decide
theorem witness_WrongRepliesAreGarbled_none : Awake mine ∧ mine.loop.exchange = none := ⟨awake_of (by decide), by decide⟩

theorem witness_WrongRepliesAreGarbled_reader :
    let r : ReaderReply := { head := { okHead with address := 2 }
                             sightings := List.replicate 5 { okSighting with vehicle := some ⟨0, 0, 0⟩ } }
    let x := polling .poll 2 (.reader 2 [])
    (sent x).loop.exchange = some x ∧ x.frame.kind = .poll ∧
    48 < (r.sightings.map fun x => match x.vehicle with | some _ => 10 | none => 6).sum ∧ 8 < (List.replicate 9 okSighting).length := by decide
/-- The exchange is a POLL of a configured head that is not in CLASH, and nothing else hinders its end. -/
def pollOk (s : State) (x : Exchange) : Bool :=
  awakeOk s && decide (s.loop.exchange = some x) && decide (x.frame.kind = .poll) && !x.abandoned && (s.head x.frame.address).configured
    && decide ((s.head x.frame.address).link = .online) && ((s.loop.round.map fun r => !r.markerOwed).getD true)
theorem witness_OtherPollsAndMismatches :
    let x := { polling .poll 2 (.reader 2 []) with purpose := .continuation 2 }
    let y := { polling .poll 5 (.sounder 2 0 0 0 0) with purpose := .interposed, retry := true }
    let z := polling .poll 1 (.gas 2 0)
    pollOk (sent x) x = true ∧ ((sent x).head 2).kind = .reader ∧ sightingsFit [] = true ∧ x.purpose = .continuation 2 ∧
    pollOk { sent y with loop.marks := [5] } y = true ∧ ((sent y).head 5).kind = .sounder ∧ y.purpose = .interposed ∧ y.retry = true ∧
    pollOk (sent z) z = true ∧ ((sent z).head 1).kind ≠ .relay ∧ z.frame.entries = [] ∧ z.purpose = .due ∧
    ((sent { polling .poll 3 .empty with purpose := .due }).head 3).kind ≠ .gas := by decide
theorem answered_of {s : State} {x : Exchange} {h : ReplyHead} {k : HeadKind} (h0 : s.loop.exchange = some x)
    (h1 : (decide (x.frame.kind = .poll) && decide (h.address = x.frame.address) && decide (h.toggle = x.frame.toggle)
      && decide (x.purpose = .due) && !x.abandoned && (s.head x.frame.address).configured
      && decide ((s.head x.frame.address).kind = k) && decide ((s.head x.frame.address).link = .online)
      && ((s.loop.round.map fun r => !r.markerOwed).getD true)) = true) : Answered s x h k := by
  simp only [Bool.and_eq_true, decide_eq_true_eq, Bool.not_eq_true'] at h1
  obtain ⟨⟨⟨⟨⟨⟨⟨⟨a, b⟩, c⟩, d⟩, e⟩, f⟩, g⟩, i⟩, j⟩ := h1
  refine ⟨h0, a, b, c, d, e, f, g, ?_, ?_⟩
  · rw [i]; exact ⟨by decide, by decide⟩
  · intro r hr
    rw [hr] at j
    simpa using j

def gas : GasReply := { head := okHead, slots := [⟨4095, true, true⟩], step := 0, verdict := 0, value := 0 }
theorem witness_GasReplyGivesReadings :
    let x := polling .poll 1 (.gas 2 0)
    Awake (sent x) ∧ Answered (sent x) x okHead .gas ∧ ((sent x).head 1).count = 1 ∧ (sent x).noTests ∧ (sent x).tablesRising ∧
    gas.slots[0]? = some ⟨4095, true, true⟩ ∧ (sent x).channelAt 1 0 = some 0 ∧ (sent x).channel? 0 = some ch4 ∧ ch4.state = .normal :=
  ⟨awake_of (by decide), answered_of (by decide) (by decide), by decide, noTests_of (by decide), rising_of (by decide), by decide,
    by decide, by decide, by decide⟩
theorem witness_GasReplyGivesReadings_offline :
    let x := { polling .poll 1 (.gas 2 0) with online := false }
    Awake (sent x) ∧ Answered (sent x) x okHead .gas ∧ ((sent x).head 1).count = 1 ∧ x.online = false ∧ (sent x).noTests :=
  ⟨awake_of (by decide), answered_of (by decide) (by decide), by decide, by decide, noTests_of (by decide)⟩
theorem witness_ReaderReplySightsMiners :
    let x := polling .poll 2 (.reader 2 [])
    let s := sent x
    Awake s ∧ Answered s x { okHead with address := 2 } .reader ∧ s.readerZone 2 = some 1 ∧
    s.people.roster.find? (fun p => decide (p.2.tag = okSighting.tag)) = some (3, miner7) ∧ s.tablesRising ∧
    miner7.state = .present ∧ miner7.zone = some 1 ∧ sightingsFit [okSighting] = true ∧ x.online = true :=
  ⟨awake_of (by decide), answered_of (by decide) (by decide), by decide, by decide, rising_of (by decide), by decide, by decide, by decide,
    by decide⟩
theorem witness_RelayReplyJudgesCircuits :
    let x := polling .poll 3 (.relay 2 [true])
    let s := sent x
    Awake s ∧ Answered s x { okHead with address := 3 } .relay ∧ (s.head 3).count = [false].length ∧
    [true][0]? = some true ∧ [false][0]? = some false ∧ (s.circuitZone 3 0).isSome = true ∧ s.circuitZone 3 1 = none :=
  ⟨awake_of (by decide), answered_of (by decide) (by decide), by decide, by decide, by decide, by decide, by decide⟩
theorem witness_PanelAndSounderReplies_refuge :
    let x := polling .poll 4 (.refuge 2 0 0 0 0)
    let s := sent x
    Awake s ∧ Answered s x { okHead with address := 4 } .refuge ∧
    s.route.refuges.find? (fun p => decide (p.2.panel = 4)) = some (0, refuge0) :=
  ⟨awake_of (by decide), answered_of (by decide) (by decide), by decide⟩
theorem witness_PanelAndSounderReplies_channel :
    let x := polling .poll 4 (.refuge 2 0 0 0 0)
    let c := { ch4 with kind := .o2, head := 4 }
    let s := { sent x with air.channels := [(10, c)] }
    Awake s ∧ Answered s x { okHead with address := 4 } .refuge ∧ x.online = true ∧ s.noTests ∧ s.tablesRising ∧
    s.channelAt 4 0 = some 10 ∧ s.channel? 10 = some c ∧ c.state = .normal :=
  ⟨awake_of (by decide), answered_of (by decide) (by decide), by decide, noTests_of (by decide), rising_of (by decide), by decide,
    by decide, by decide⟩
theorem witness_PanelAndSounderReplies_sounder :
    let x := polling .poll 5 (.sounder 2 0 0 0 0)
    let s := sent x
    Awake s ∧ Answered s x { okHead with address := 5 } .sounder ∧ s.evac.pulled.contains 5 = false ∧ s.running = true ∧
    s.evac.state = .quiet := ⟨awake_of (by decide), answered_of (by decide) (by decide), by decide, by decide, by decide⟩
theorem witness_IdentifyReplyMatchesTheHead :
    let x := polling .identify 1 .empty
    let s := sent x
    Awake s ∧ s.loop.exchange = some x ∧ x.purpose = .due ∧ x.abandoned = false ∧ okHead.address = x.frame.address ∧
    (s.head 1).configured = true ∧ (s.head 1).link ≠ .clash ∧ (s.head 1).link ≠ .unconfigured ∧ s.loop.round = some emptyRound ∧
    emptyRound.markerOwed = false :=
  ⟨awake_of (by decide), by decide, by decide, by decide, by decide, by decide, by decide, by decide, by decide, by decide⟩
theorem witness_RoundEndCountsTheRound :
    let s := { mine with loop.round := some emptyRound }
    Awake s ∧ s.nextWork = .roundEnd ∧ s.loop.round = some emptyRound ∧ s.loop.roundOwed = false ∧ s.loop.state = .whole :=
  ⟨awake_of (by decide), by decide, by decide, by decide, by decide⟩
theorem witness_RoundEndCountsTheRound_broken :
    let r := { emptyRound with reachedA := 1, reachedB := 3, missed := [2] }
    let s := { mine with loop.round := some r, loop.state := .broken, loop.roundOwed := true }
    Awake s ∧ s.nextWork = .roundEnd ∧ s.loop.round = some r ∧ s.loop.roundOwed = true ∧ s.loop.state = .broken ∧ 2 ∈ r.missed ∧
    (s.head 2).configured = true ∧ r.reachedA < (s.head 2).position ∧ (s.head 2).position < r.reachedB :=
  ⟨awake_of (by decide), by decide, by decide, by decide, by decide, by decide, by decide, by decide, by decide⟩

theorem witness_RollCallAndAssignment_rollCall :
    let e := flight 31 0x10 .loop 0
    let x := { polling .identify 63 .empty with purpose := .rollCall, retry := true }
    let rc : RollCall := { automatic := false, begun := true, address := 63, tries := [.good .gas 7] }
    let s := { sent x with loop.rollCall := some rc, orders.inFlight := [e] }.writeSlot 31 0 [handTaken]
    Awake s ∧ s.loop.exchange = some x ∧ x.frame.kind = .identify ∧ x.abandoned = false ∧ emptyRound.markerOwed = false ∧ s.noTests ∧
    x.purpose = .rollCall ∧ s.loop.rollCall = some rc ∧ rc.begun = true ∧ rc.address = x.frame.address ∧ rc.tries = [.good .gas 7] ∧
    s.due x.sentAt 4 = true ∧ x.begun = false ∧ Waiting s e 0x10 .loop 0 :=
  ⟨awake_of (by decide), by decide, by decide, by decide, by decide, noTests_of (by decide), by decide, by decide, by decide, by decide,
    by decide, by decide, by decide, waiting_of (by decide) (by decide)⟩
theorem witness_RollCallAndAssignment_assign :
    let e := flight 31 0x11 .loop 0
    let x := { polling .identify 63 .empty with purpose := .assignCheck, retry := true }
    let a : Assignment := { serial := 101, target := 63, begun := true, rounds := 3 }
    let s := { sent x with loop.assignment := some a, orders.inFlight := [e] }.writeSlot 31 0 [handTaken]
    Awake s ∧ s.loop.exchange = some x ∧ s.noTests ∧ x.purpose = .assignCheck ∧ s.loop.assignment = some a ∧ a.begun = true ∧
    a.target = x.frame.address ∧ (s.head 1).identified = some a.serial ∧ Waiting s e 0x11 .loop 0 :=
  ⟨awake_of (by decide), by decide, noTests_of (by decide), by decide, by decide, by decide, by decide, by decide,
    waiting_of (by decide) (by decide)⟩
/-! ### Witnesses: timers and the Air Evaluator -/

theorem witness_BlindGraceTripsTheZone :
    let r := { Zone.blank with inUse := true, kind := .roadway, vote := 1, powered := true, trip := .blindGrace }
    let s := { live with zone.zones := [(31, r)], zone.grace := [(31, ⟨0, 60000⟩)], supply.runTime := 60000 }
    Awake s ∧ s.running = true ∧ lookupAt s.zone.grace 31 = some ⟨0, 60000⟩ ∧ s.due 0 60000 = true ∧ (s.zoneRec 31).inUse = true ∧
    (s.zoneRec 31).powered = true ∧ (s.zoneRec 31).trip = .blindGrace ∧ (s.aggregate 31 .ch4).healthy = 0 ∧
    s.externalTrip 31 = false ∧ s.relaySafe :=
  ⟨awake_of (by decide), by decide, by decide, by decide, by decide, by decide, by decide, by decide, by decide,
    relaySafe_of (by decide)⟩

def inTest (st : ChannelState) (e : InFlight) : State :=
  { mine with air.channels := [(0, { ch4 with state := st })], orders.inFlight := [e] }.writeSlot 31 0 [handTaken]
theorem witness_TestTimersEndTheTests_bump :
    let e := flight 31 0x21 .channel 0
    let s := { inTest .bump e with tests.bumps := [(0, bump0)] }
    Awake s ∧ s.tests.bumps = [(0, bump0)] ∧ s.tests.cals = [] ∧ s.tests.checks = [] ∧ s.due bump0.start bump0.length = true ∧
    s.channel? 0 = some { ch4 with state := .bump } ∧ Waiting s e 0x21 .channel 0 ∧ bump0.timeAtA = none :=
  ⟨awake_of (by decide), by decide, by decide, by decide, by decide, by decide, waiting_of (by decide) (by decide), by decide⟩
theorem witness_TestTimersEndTheTests_reached :
    let e := flight 31 0x21 .channel 0
    let b := { bump0 with timeAtA := some 10000 }
    let s := { inTest .bump e with tests.bumps := [(0, b)] }
    Awake s ∧ s.tests.bumps = [(0, b)] ∧ s.due b.start b.length = true ∧ Waiting s e 0x21 .channel 0 :=
  ⟨awake_of (by decide), by decide, by decide, waiting_of (by decide) (by decide)⟩
theorem witness_TestTimersEndTheTests_step :
    let e := flight 31 0x22 .head 1
    let x := check0
    let s := { inTest .selfcheck e with tests.checks := [(1, x)] }
    Awake s ∧ s.tests.bumps = [] ∧ s.tests.cals = [] ∧ s.tests.checks = [(1, x)] ∧ x.step = some 4 ∧ x.timer = some 0 ∧
    s.due 0 stepTime = true ∧ Waiting s e 0x22 .head 1 ∧ s.headOnline 1 = true ∧ s.attached { ch4 with state := .selfcheck } = true :=
  ⟨awake_of (by decide), by decide, by decide, by decide, by decide, by decide, by decide, waiting_of (by decide) (by decide),
    by decide, by decide⟩
theorem witness_TestTimersEndTheTests_recovery :
    let s := { mine with air.channels := [(0, { ch4 with state := .recovery })], tests.recoveries := [(0, 0)], supply.runTime := 120000 }
    Awake s ∧ s.noTests ∧ lookupAt s.tests.recoveries 0 = some 0 ∧ s.due 0 120000 = true ∧
    s.channel? 0 = some { ch4 with state := .recovery } ∧ s.tablesRising :=
  ⟨awake_of (by decide), noTests_of (by decide), by decide, by decide, by decide, rising_of (by decide)⟩
theorem witness_PagesAndCalls_timeout :
    let e := flight 31 0x30 .roster 3
    let p := page0
    let s := { inTest .normal e with people.pages := [(3, p)] }
    Awake s ∧ lookupAt s.people.pages 3 = some p ∧ s.due p.start p.length = true ∧ s.miner? 3 = some miner7 ∧
    Waiting s e 0x30 .roster 3 ∧ s.tablesRising :=
  ⟨awake_of (by decide), by decide, by decide, by decide, waiting_of (by decide) (by decide), rising_of (by decide)⟩
theorem witness_LostTagsLeave_miner : Awake mine ∧ mine.miner? 3 = some miner7 ∧ miner7.state = .present ∧ miner7.lastSeen = some 0 ∧
    mine.supply.policy.lostTime * 1000 ≤ elapsed mine.now 0 := ⟨awake_of (by decide), by decide, by decide, by decide, by decide⟩
def atExit (m : Miner) : State :=
  { mine with zone.zones := [(1, { Zone.blank with inUse := true, kind := .exit, vote := 1 })], people.roster := [(3, m)] }
theorem witness_LostTagsLeave_out :
    (atExit miner7).tablesRising ∧ ((atExit miner7).zoneRec 1).kind = .exit ∧ miner7.person ≠ 0 ∧
    (atExit { miner7 with person := 0 }).evac.state = .quiet := ⟨rising_of (by decide), by decide, by decide, by decide⟩
theorem witness_LostTagsLeave_early :
    let s := { mine with supply.runTime := 59999 }
    Awake s ∧ s.miner? 3 = some miner7 ∧ s.minerOverdue miner7 = false ∧ s.vehicle? 2 = some vehicle5 ∧
    s.vehicleOverdue vehicle5 = false := ⟨awake_of (by decide), by decide, by decide, by decide, by decide⟩
theorem witness_LostTagsLeave_vehicle : Awake mine ∧ mine.vehicle? 2 = some vehicle5 ∧ vehicle5.state = .present ∧ vehicle5.lastSeen = some 0 ∧
    mine.supply.policy.lostTime * 1000 ≤ elapsed mine.now 0 := ⟨awake_of (by decide), by decide, by decide, by decide, by decide⟩
theorem witness_EvacuationTimersAct_ask :
    let s := { mine with evac.state := .asking, evac.askTimer := some ⟨40000, 60000⟩ }
    Awake s ∧ s.due 40000 60000 = true ∧ s.evac.askTimer = some ⟨40000, 60000⟩ ∧ s.evac.state = .asking :=
  ⟨awake_of (by decide), by decide, by decide, by decide⟩
theorem witness_EvacuationTimersAct_deadline :
    let s := { mine with evac.state := .mustering, evac.deadline := some ⟨40000, 60000⟩ }
    Awake s ∧ s.due 40000 60000 = true ∧ s.evac.deadline = some ⟨40000, 60000⟩ := ⟨awake_of (by decide), by decide, by decide⟩
theorem witness_LevelsFollowTheThresholds :
    ch4.kind = .ch4 ∧ ({ ch4 with kind := .o2, l1 := 195, l2 := 190, l3 := 180 } : Channel).kind = .o2 ∧ (0 : Nat) < 3 ∧
    ch4.l3 ≤ max 0 150 := by decide
theorem test_level_rises_at_once : ch4.evaluate 0 0 150 = 3 := by decide
theorem test_level_falls_by_one : ch4.evaluate 3 139 139 = 2 ∧ ch4.evaluate 3 140 140 = 3 := by decide
theorem witness_ReadingsAreConverted : ch4.zero + 64 ≤ ch4.span ∧ ch4.zero ≤ 4094 := by decide
theorem witness_GasReplyGivesReadings_reading : ch4.zero + 64 ≤ ch4.span ∧ ch4.state = .normal ∧
    (1 : Nat) < ch4.zero ∧ ch4.span - ch4.zero < (ch4.zero - 1) * 20 ∧
    ¬((4094 : Nat) < ch4.zero ∧ ch4.span - ch4.zero < (ch4.zero - 4094) * 20) := by decide

/-- An exit zone 1, its passable neighbour 2, an impassable zone 3 beside 2, a passable zone 4 apart, and the rest not in use. -/
def roadways : State :=
  { live with
    zone.zones := [(1, { Zone.blank with inUse := true, kind := .exit, passable := true, neighbours := [2] }),
      (2, { Zone.blank with inUse := true, kind := .roadway, passable := true, neighbours := [1, 3] }),
      (3, { Zone.blank with inUse := true, kind := .roadway, neighbours := [2] }),
      (4, { Zone.blank with inUse := true, kind := .roadway, passable := true })] }

theorem witness_EscapeWaysLeadToTargets :
    (∀ p ∈ roadways.zone.zones, p.1 < 32) ∧ roadways.targets = [1] ∧ (roadways.recompute.escape 2).way = some (1, 1, 1) ∧
    (roadways.recompute.escape 3) = { way := some (2, 2, 1), badAir := true } ∧ (roadways.recompute.escape 4).way = none ∧
    (roadways.zoneRec 31).inUse = false := by decide

def pair0 : Encounter := { vehicle := 2, miner := 3, zone := 5, created := 0, miss := 0 }

theorem witness_EncounterAndDownlinkLists_listed :
    let s := { mine with haul.encounters := [pair0] }
    s.haul.encounters.length ≤ 48 ∧ s.miner? pair0.miner = some miner7 ∧
    s.pairZone { vehicle5 with moving := true } miner7 = some 1 ∧ s.pairZone vehicle5 miner7 = none ∧
    (s.vehicleEvaluation 2 { vehicle5 with moving := true }).1 = [{ pair0 with zone := 1 }] ∧
    (s.vehicleEvaluation 2 vehicle5).1 = [{ pair0 with miss := 1 }] := by decide
theorem witness_EncounterAndDownlinkLists_unlisted :
    (3, miner7) ∈ mine.people.roster ∧ mine.pairZone { vehicle5 with moving := true } miner7 = some 1 ∧
    mine.haul.encounters = [] ∧ (mine.vehicleEvaluation 2 { vehicle5 with moving := true }).1.length < 48 := by decide
theorem witness_EncounterAndDownlinkLists_downlink :
    let s := { mine with
      people.lists := [(0, { reader := 2, entries := [] })]
      people.conditions := [{ ref := .miner 3, kind := .page, code := 1, target := 0, next := 0, created := 0, acked := false }] }
    lookupAt s.people.lists 0 = some { reader := 2, entries := [] } ∧
    ((lookupAt (s.refill 0).people.lists 0).map fun l => l.entries.map fun e => (e.tag, e.sent)) = some [(7, true)] := by decide
theorem witness_TheLogAndItsCounts_room : (live.port.written - live.port.taken).toNat < 256 ∧
    ({ live with port.written := 255 }.port.written - live.port.taken).toNat < 256 := by decide
theorem witness_TheLogAndItsCounts_full : 256 ≤ ({ live with port.written := 256 }.port.written - live.port.taken).toNat := by decide

/-! ### Witnesses: the judgements -/

def raised : State := { closedZone with air.channels := [(0, { ch4 with level := 3 })] }
theorem witness_CoverAndGasTrip :
    (raised.zoneRec 1).inUse = true ∧ raised.running = true ∧ raised.supply.in4.status = false ∧ (raised.zoneRec 1).trip = .normal ∧
    (raised.zoneRec 1).powered = true ∧ raised.healthy { ch4 with level := 3 } = true ∧ (mine.zoneRec 1).powered = false := by decide
theorem witness_ZoneEvaluationJudges :
    (mine.zoneRec 31).inUse = false ∧ (closedZone.zoneRec 1).inUse = true ∧ closedZone.running = true ∧
    { closedZone with supply.phase := .setup }.running = false ∧
    (let s := { closedZone with air.channels := [] }
     ((s.evalZone 1).zoneRec 1).trip = .blindGrace ∧ (s.zoneRec 1).trip ≠ .blindGrace) := by decide
theorem witness_AlarmOutputsFollow :
    raised.active = true ∧ (raised.zoneRec 1).inUse = true ∧
    (raised.zoneRec 1).condition ≠ ((raised.evalZone 1).zoneRec 1).condition ∧
    (raised.zoneRec 1).trip ≠ ((raised.evalZone 1).zoneRec 1).trip ∧ (raised.judgeLoop false).loop.state ≠ raised.loop.state ∧
    31 ∉ raised.zonesInUse := by decide
theorem witness_TestsTakeReadings_bump :
    let c := { ch4 with state := .bump }
    let s := { mine with air.channels := [(0, c)], tests.bumps := [(0, bump0)] }
    s.channel? 0 = some c ∧ c.state = .bump ∧ lookupAt s.tests.bumps 0 = some bump0 ∧ c.convert 1720 = bump0.a ∧ c.convert 3031 = bump0.b := by
  decide
theorem witness_TestsTakeReadings_recovery :
    let c := { ch4 with state := .recovery }
    let s := { mine with air.channels := [(0, c)], tests.recoveries := [(0, 0)] }
    s.channel? 0 = some c ∧ c.state = .recovery ∧ lookupAt s.tests.recoveries 0 = some 0 ∧ c.convert 410 < c.l1 ∧ c.l1 ≤ c.convert 1720 := by
  decide
theorem witness_TestsTakeReadings_calibrate :
    let c := { ch4 with state := .cal }
    let m : CalRec := { span := false, gas := 250, samples := List.replicate 7 400 }
    let s := { mine with air.channels := [(0, c)], tests.cals := [(0, m)] }
    s.channel? 0 = some c ∧ c.state = .cal ∧ lookupAt s.tests.cals 0 = some m ∧ m.samples.length = 7 ∧
    (∀ x ∈ m.samples ++ [408], 400 ≤ x ∧ x ≤ 408) ∧ 400 ∈ m.samples ++ [408] ∧ 408 ∈ m.samples ++ [408] ∧ lookupAt s.tests.bumps 0 = none := by
  decide
theorem witness_TestsTakeReadings_check :
    let s := { mine with air.channels := [(0, { ch4 with state := .selfcheck })], tests.checks := [(1, check0)] }
    lookupAt s.tests.checks 1 = some check0 ∧ check0.step = some 4 ∧ s.channel? 0 = some { ch4 with state := .selfcheck } ∧ ch4.head = 1 := by
  decide
theorem witness_TestsTakeReadings_abort :
    let s := { closedZone with air.channels := [(0, { ch4 with state := .bump })], tests.bumps := [(0, bump0)] }
    (s.zoneRec 1).inUse = true ∧ (s.zoneRec 1).closed = true ∧ (.bump 0, 1, .ch4) ∈ (s.evalZone 1).work.aborts := by decide

/-! ### Witnesses: tags, refuges and the evacuation -/

/-- A reader's list with messages sent to miner 3, and the conditions they stand for. -/
def delivering (k : DownKind) (count : Nat) (ack : Bool) : State :=
  { mine with
    people.conditions := [{ ref := .miner 3, kind := k, code := 1, target := 0xFF, next := 0xFF, created := 0, acked := false }]
    people.pages := [(3, { page0 with ack := ack })]
    people.lists := [(23, { reader := 2, entries := [
      { ref := .miner 3, tag := 7, kind := k, code := 1, target := 0xFF, next := 0xFF, created := 0, count := count, sent := true,
        ended := false, lastReader := none }] })] }
theorem witness_SightingsPlaceMiners :
    Awake mine ∧ mine.readerZone 2 = some 1 ∧ mine.people.roster.find? (fun p => decide (p.2.tag = 8)) = none ∧ mine.miner? 0 = none ∧
    mine.people.roster.find? (fun p => decide (p.2.tag = 7)) = some (3, miner7) ∧ mine.miner? 3 = some miner7 :=
  ⟨awake_of (by decide), by decide, by decide, by decide, by decide, by decide⟩
theorem lookupAt_upTo {α : Type} (x : α) : ∀ (n lo i : Nat), lo ≤ i → i < lo + n →
    (lookupAt ((List.range' lo n).map fun k => (k, x)) i).isSome = true
  | 0, lo, i, h, g => absurd g (by omega)
  | n + 1, lo, i, h, g => by
    rw [List.range'_succ, List.map_cons, lookupAt]
    split
    · rfl
    · exact lookupAt_upTo x n (lo + 1) i (by omega) (by omega)
theorem witness_SightingsPlaceMiners_full :
    let s := { mine with people.roster := (List.range' 0 256).map fun k => (k, miner7) }
    Awake s ∧ s.readerZone 2 = some 1 ∧ ∀ i, i < 256 → (s.miner? i).isSome = true :=
  ⟨⟨rfl, rfl, rfl, rfl⟩, by decide, fun i h => lookupAt_upTo miner7 256 0 i (by omega) (by omega)⟩
theorem witness_SightingsPlaceMiners_ack :
    let s := delivering .page 1 true
    Awake s ∧ s.readerZone 2 = some 1 ∧ (s.condition? (.miner 3) .page).isSome = true ∧ s.deliveries (.miner 3) .page = 1 ∧
    lookupAt s.people.pages 3 = some page0 ∧ page0.ack = true ∧ s.tablesRising :=
  ⟨awake_of (by decide), by decide, by decide, by decide, by decide, by decide, rising_of (by decide)⟩
theorem witness_SightingsPlaceMiners_deliveries :
    let s := delivering .page 0 false
    Awake s ∧ s.readerZone 2 = some 1 ∧ s.listPosition 2 = some 23 ∧ s.tablesRising ∧ s.miner? 3 = some miner7 ∧
    ∃ l e, lookupAt s.people.lists 23 = some l ∧ l.entries = [] ++ e :: [] ∧ e.sent = true ∧ e.ended = false ∧ e.ref = .miner 3 ∧
      e.kind = .page ∧ ∀ p ∈ s.people.lists, p.1 = 23 :=
  ⟨awake_of (by decide), by decide, by decide, rising_of (by decide), by decide, _, _, rfl, rfl, by decide, by decide, by decide,
    by decide, by decide⟩
theorem witness_SightingsPlaceVehicles :
    Awake mine ∧ mine.readerZone 2 = some 1 ∧ (mine.zoneRec 1).kind ≠ .refuge ∧
    mine.haul.vehicles.find? (fun p => decide (p.2.tag = 0x800006)) = none ∧
    mine.haul.vehicles.find? (fun p => decide (p.2.tag = 0x800005)) = some (2, vehicle5) ∧ mine.vehicle? 2 = some vehicle5 ∧
    (let s := { mine with zone.zones := [(1, { Zone.blank with inUse := true, kind := .refuge, readers := [2] })] }
     s.readerZone 2 = some 1 ∧ (s.zoneRec 1).kind = .refuge) :=
  ⟨awake_of (by decide), by decide, by decide, by decide, by decide, by decide, by decide⟩
theorem witness_SightingsPlaceVehicles_unacked :
    let v := { vehicle5 with effective := .stop, unacked := 2 }
    let c : Condition := { ref := .vehicle 2, kind := .vehicleCommand, code := 2, target := 0xFF, next := 0xFF, created := 7, acked := false }
    let s := { mine with haul.vehicles := [(2, v)], people.conditions := [c] }
    s.vehicle? 2 = some v ∧ s.condition? (.vehicle 2) .vehicleCommand = some c ∧ v.unacked = 2 := by decide
theorem witness_RefugesAreJudged : mine.refuge? 0 = some refuge0 := by decide
theorem witness_EvacuationJudges :
    mine.running = true ∧ mine.evac.state = .quiet ∧ 1 ∉ mine.evac.declined ∧ mine.supply.policy.evacPolicy = .ask ∧
    1 ∈ { mine with evac.declined := [1] }.evac.declined ∧ { mine with supply.phase := .setup }.running = false ∧
    (let s := { mustering with evac.drill := true }
     s.evac.state ≠ .quiet ∧ s.evac.state ≠ .asking ∧ s.evac.drill = true) := by decide
theorem witness_EvacuationJudges_muster :
    let m := { miner7 with state := .atRefuge, muster := .required }
    let s := { mustering with people.roster := [(3, m)] }
    s.evac.state = .mustering ∧ s.miner? 3 = some m ∧ m.muster = .required ∧ m.state = .atRefuge ∧ miner7.assist = false := by decide
theorem witness_EncounterAndDownlinkLists_near :
    let s := { mine with haul.encounters := [⟨2, 3, 1, 0, 0⟩] }
    s.haul.encounters = [] ++ ⟨2, 3, 1, 0, 0⟩ :: [] ∧ s.vehicle? 2 = some vehicle5 ∧ (∀ e ∈ mine.haul.encounters, e.miner ≠ 3) := by decide

/-! ### Witnesses: the poll plan, the due list, replies, the search and the lists -/

/-- At the round timer's expiry with the supply mode `m` under the plan's modes `r`, after a round that ran with `w`. -/
def planned (m r : SupplyMode) (w : Option SupplyMode) : State :=
  { mine with supply.mode := m, loop.rates := r, loop.windows := r, loop.lastWindows := w }
/-- A slower mode takes a transition round, then its rates; a faster one returns at once; each boundary of R32. -/
theorem witness_RoundsAndMarkers_plan :
    ([planned .reserve .mains (some .mains), planned .reserve .mains none, planned .reserve .mains (some .reserve),
      planned .mains .battery (some .battery), planned .reserve .reserve (some .reserve)].all fun s =>
      awakeOk s && s.due s.loop.roundAt s.supply.policy.pollPeriod && decide (s.loop.round = none)
        && risingFrom 0 s.loop.heads) = true := by decide
theorem witness_LoopFramesAreSent_clashed :
    let clash := onlineHead .reader 60 0 160
    let s := { mine with
      loop.heads := mine.loop.heads ++ [(60, { clash with link := .clash })]
      loop.rollCall := some { automatic := true, begun := true, address := 63, tries := [] }
      loop.round := some { emptyRound with due := [60], rollLeft := 1 } }
    let d := { mine with loop.heads := s.loop.heads, loop.round := some { emptyRound with due := [60, 3, 5] } }
    Awake s ∧ s.nextWork = .identify 63 .rollCall ∧ (s.head 60).link = .clash ∧ Awake d ∧ d.nextWork = .poll 3 .due ∧
    d.loop.round.map (·.due) = some ([60] ++ 3 :: [5]) :=
  ⟨awake_of (by decide), by decide, by decide, awake_of (by decide), by decide, by decide⟩
theorem witness_LoopFramesAreSent_clashedAssign :
    let clash := onlineHead .reader 60 0 160
    let a : Assignment := { serial := 1, target := 6, begun := true, rounds := 1 }
    let s := { mine with
      loop.heads := mine.loop.heads ++ [(60, { clash with link := .clash })]
      loop.assignment := some a, loop.round := some { emptyRound with due := [60], assignEnds := [.a, .b] } }
    Awake s ∧ s.nextWork = .assign .a ∧ s.loop.assignment = some a := ⟨awake_of (by decide), by decide, by decide⟩
theorem witness_OtherPollsAndMismatches_pulled :
    let y := { polling .poll 5 (.sounder 2 0 0 0 0) with purpose := .interposed }
    let r : SounderReply := { head := { okHead with address := 5 }, pulled := true }
    pollOk { sent y with loop.marks := [5] } y = true ∧ ((sent y).head 5).kind = .sounder ∧ r.head.address = 5 ∧ y.online = true ∧
    (sent y).evac.pulled.contains 5 = false := by decide
/-- Status flags: a retry whose reply rejects the last POLL, an assignment's check of a configured head, and a full history. -/
theorem witness_IdentifyReplyMatchesTheHead_status :
    let full : HeadInner := { mine.headInner 2 with history := List.replicate 16 .missed }
    let s (x : Exchange) : State := { sent x with loop.inner := [(2, full)] }
    let x := { polling .poll 2 (.reader 2 []) with retry := true, side := .b, purpose := .continuation 3 }
    let y := { polling .identify 2 .empty with purpose := .assignCheck }
    let h := { okHead with address := 2, rejected := true, failsafe := true, localFault := true }
    pollOk (s x) x = true ∧ h.toggle = x.frame.toggle ∧ sightingsFit [] = true ∧ (s x).headInner 2 = full ∧
    awakeOk (s y) = true ∧ (s y).loop.exchange = some y ∧ y.abandoned = false ∧ (s y).loop.round = some emptyRound ∧
    emptyRound.markerOwed = false ∧ ((s y).head 2).configured = true ∧ full.history.length = 16 := by decide
theorem witness_EscapeWaysLeadToTargets_reached :
    let reached (b : Nat) := (roadways.recompute.escape b).way
    risingFrom 0 roadways.zone.zones = true ∧ reached 1 = some (0, 1, 1) ∧ 2 ∈ (roadways.zoneRec 1).neighbours ∧
    (roadways.zoneRec 3).passable = false ∧ (roadways.zoneRec 3).neighbours = [] ++ 2 :: [] ∧ reached 2 = some (1, 1, 1) := by decide
/-- An impassable zone between two targets: both have distance 0, so the earlier neighbour is taken; and one with no reached neighbour. -/
theorem witness_EscapeWaysLeadToTargets_ties :
    let exit := { Zone.blank with inUse := true, kind := .exit, passable := true }
    let s : State := { live with zone.zones := [(0, exit), (30, { Zone.blank with inUse := true, neighbours := [31, 0] }), (31, exit),
      (29, { Zone.blank with inUse := true, neighbours := [30] })] }
    (s.zoneRec 30).neighbours = [] ++ 31 :: [0] ∧ (s.recompute.escape 31).way = some (0, 31, 31) ∧
    (s.recompute.escape 0).way = some (0, 0, 0) ∧ (s.zoneRec 30).passable = false ∧ (s.zoneRec 30).inUse = true ∧
    (s.zoneRec 29).neighbours = [30] ∧ (s.recompute.escape 30).way = some (1, 31, 31) := by decide
/-- A vehicle evaluation with a pair at its second miss, and one that finds the list full and leaves a pair out. -/
theorem witness_EncounterAndDownlinkLists_vehicle :
    let full := (List.range 48).map fun k => ({ vehicle := 23, miner := 100 + k, zone := 1, created := 0, miss := 0 } : Encounter)
    let moving := { vehicle5 with moving := true }
    let s := { mine with haul.encounters := [{ pair0 with miss := 1 }] }
    let f := { mine with haul.encounters := full }
    risingFrom 0 s.people.roster = true ∧ s.vehicle? 2 = some vehicle5 ∧ s.pairZone vehicle5 miner7 = none ∧
    (s.vehicleEvaluation 2 vehicle5).1 = [] ∧ (f.vehicleEvaluation 2 moving).2 = [(2, 3)] ∧ full.length = 48 ∧
    moving.state ≠ .lost ∧ moving.state ≠ .out ∧ { vehicle5 with state := .lost }.tag = vehicle5.tag := by decide
theorem witness_EncounterAndDownlinkLists_distinct : [pair0].Pairwise fun e f => ¬(e.vehicle = f.vehicle ∧ e.miner = f.miner) :=
  by decide
theorem witness_EncounterAndDownlinkLists_miner :
    let full := (List.range 48).map fun k => ({ vehicle := 23, miner := 100 + k, zone := 1, created := 0, miss := 0 } : Encounter)
    let s := { mine with haul.vehicles := [(2, { vehicle5 with moving := true })], haul.encounters := [{ pair0 with miss := 1 }] }
    let f := { s with haul.encounters := full }
    risingFrom 0 s.haul.vehicles = true ∧ s.miner? 3 = some miner7 ∧
    (s.minerEvaluation 3 miner7).1 = [{ pair0 with zone := 1 }] ∧ (f.minerEvaluation 3 miner7).2 = [(2, 3)] ∧
    (s.minerEvaluation 3 { miner7 with state := .out }).1 = [] := by decide
/-- A reader's list with an acknowledged, an ended and a standing message, the standing one in another list too. -/
theorem witness_EncounterAndDownlinkLists_refill :
    let c (k : DownKind) (acked : Bool) : Condition :=
      { ref := .miner 3, kind := k, code := 1, target := 0xFF, next := 0xFF, created := 0, acked := acked }
    let e (k : DownKind) (ended : Bool) : DownEntry :=
      { ref := .miner 3, tag := 7, kind := k, code := 1, target := 0xFF, next := 0xFF, created := 0, count := 0, sent := true
        ended := ended, lastReader := none }
    let s := { mine with
      people.conditions := [c .evacuate true, c .callAnswer false, c .page false]
      people.lists := [(0, { reader := 2, entries := [e .evacuate false, e .callAnswer true, e .page false] }),
        (23, { reader := 63, entries := [e .page false] })] }
    risingFrom 0 s.people.lists = true ∧ (s.tagOf (.miner 3)).map (·.2) = some (some 2) ∧
    (s.people.conditions.Pairwise fun c d => ¬(c.ref = d.ref ∧ c.kind = d.kind)) ∧
    ((lookupAt (s.refill 0).people.lists 0).map fun l => l.entries.map fun e => (e.kind, e.ended))
      = some [(.page, false), (.callAnswer, false)] ∧
    (lookupAt (s.refill 0).people.lists 23).map (·.entries.length) = some 0 := by decide

/-- A round has nothing left to send, and the zone evaluations of its end find CO at L3 where the record has no evac-gas flag yet: by
policy AUTO the rise enters ALERTING, in a round that still runs. -/
def gasAtRoundEnd : State :=
  { live with
    loop.heads := [(11, onlineHead .gas 1 1 111)], air.channels := [(0, { co with head := 11, slot := 0, zone := some 6, level := 3 })]
    zone.zones := [(6, { Zone.blank with inUse := true, kind := .roadway, vote := 1, passable := true })]
    supply.policy.evacPolicy := .auto, loop.round := some emptyRound }
theorem witness_RoundEndCountsTheRound_enters :
    Awake gasAtRoundEnd ∧ gasAtRoundEnd.nextWork = .roundEnd ∧ gasAtRoundEnd.evac.state = .quiet ∧
    gasAtRoundEnd.loop.round = some emptyRound := ⟨awake_of (by decide), by decide, by decide, by decide⟩
theorem test_round_end_enters_alerting :
    gasAtRoundEnd.endRound.evac.state = .alerting ∧ gasAtRoundEnd.endRound.evac.roundAtEntry = true ∧
    gasAtRoundEnd.endRound.evac.roundEnds = 1 := by decide
theorem witness_RoundEndCountsTheRound_alerting :
    let s := { mine with loop.round := some emptyRound, evac.state := .alerting, evac.roundAtEntry := true, evac.roundEnds := 1
                         evac.deadlinePassed := true, evac.unaccounted := 1 }
    Awake s ∧ s.nextWork = .roundEnd ∧ s.loop.round = some emptyRound ∧ s.evac.state = .alerting ∧ s.evac.roundEnds + 1 = 2 :=
  ⟨awake_of (by decide), by decide, by decide, by decide, by decide⟩
/-- A zone whose CO has fallen, and whose evac-gas flag and declined flag are still set. -/
theorem witness_EvacuationJudges_fall :
    let s := { mine with zone.zones := [(1, { closedZone.zoneRec 1 with evacGas := true })], evac.declined := [1, 31] }
    s.active = true ∧ s.work = Work.none ∧ (s.zoneRec 1).evacGas = true ∧ ((s.evalZone 1).zoneRec 1).evacGas = false ∧
    ({ s with work.evac := [.gasFall 1] } : State).finish.evac.declined = [31] := by decide
theorem witness_EvacuationJudges_rise :
    (gasAtRoundEnd.zoneRec 6).evacGas = false ∧ ((gasAtRoundEnd.evalZone 6).zoneRec 6).evacGas = true := by decide
theorem witness_EscapeWaysLeadToTargets_targets :
    let s := { roadways with
      route.refuges := [(0, { refuge0 with zone := 4 }), (3, { refuge0 with zone := 2, usable := false })] }
    (∀ p ∈ s.zone.zones, p.1 < 32) ∧ s.targets = [1, 4] ∧ (s.zoneRec 2).passable = true ∧ (s.zoneRec 2).kind ≠ .exit := by decide
/-- A full list in order: of two CALL_ANSWER entries the younger is evicted by an EVACUATE, and a CALL_TAKEN and the younger of two
waiting conditions stay out. -/
theorem witness_EncounterAndDownlinkLists_full :
    let c (m : Nat) (k : DownKind) (made : Clock) : Condition :=
      { ref := .miner m, kind := k, code := 1, target := 0xFF, next := 0xFF, created := made, acked := false }
    let e (m : Nat) (k : DownKind) (made : Clock) : DownEntry :=
      { ref := .miner m, tag := m, kind := k, code := 1, target := 0xFF, next := 0xFF, created := made, count := 0, sent := false
        ended := false, lastReader := none }
    let pages := (List.range' 1 6).map fun m : Nat => e m .page 5
    let l : DownList := { reader := 2, entries := pages ++ [e 1 .callAnswer 3, e 2 .callAnswer 4] }
    let s := { mine with
      people.roster := (List.range' 1 8).map fun m => (m, { miner7 with tag := m })
      people.conditions := (l.entries.map fun x : DownEntry => { c 0 x.kind x.created with ref := x.ref }) ++ [c 8 .evacuate 9, c 3 .callTaken 9]
      people.lists := [(0, l)] }
    lookupAt s.people.lists 0 = some l ∧ l.entries.length = 8 ∧
    (s.people.conditions.Pairwise fun c d : Condition => ¬(c.ref = d.ref ∧ c.kind = d.kind)) ∧ risingFrom 0 s.people.lists = true ∧
    (l.entries.Pairwise fun x y : DownEntry => y.kind.code < x.kind.code ∨ (x.kind = y.kind ∧
      (elapsed s.now y.created < elapsed s.now x.created ∨ (elapsed s.now x.created = elapsed s.now y.created ∧ x.tag ≤ y.tag)))) ∧
    ((lookupAt (s.refill 0).people.lists 0).map fun l => l.entries.map fun e : DownEntry => (e.tag, e.kind)) =
      some ([(8, .evacuate)] ++ (pages.map fun e : DownEntry => (e.tag, e.kind)) ++ [(1, .callAnswer)]) := by decide
theorem witness_EncounterAndDownlinkLists_waits :
    let s := { mine with
      people.roster := (List.range' 1 9).map fun m => (m, { miner7 with tag := m })
      people.conditions := (List.range' 1 9).map fun m : Nat =>
        ({ ref := .miner m, kind := .page, code := 1, target := 0xFF, next := 0xFF, created := 5, acked := false } : Condition)
      people.lists := [(23, { reader := 2, entries := [] })] }
    (s.people.conditions.Pairwise fun c d : Condition => ¬(c.ref = d.ref ∧ c.kind = d.kind)) ∧
    ((lookupAt (s.refill 23).people.lists 23).map fun l => l.entries.map fun e : DownEntry => e.tag) = some [1, 2, 3, 4, 5, 6, 7, 8] ∧
    (s.tagOf (.miner 9)).map (·.1) = some 9 := by decide
/-- Digits and points by the channels' own kinds (R69). -/
theorem test_panelShowsByKind :
    let s := { mine with air.channels := [(10, { ch4 with mean := some 123 }), (11, { ch4 with kind := .o2, mean := some 209 })] }
    (s.pollPayload 4 false).1 = .refuge 2 0x0123 2 0x0209 1 ∧ (mine.pollPayload 4 false).1 = .refuge 2 0xFFFF 1 0xFFFF 0 := by decide
/-- The Evacuation Unit updates an entry besides the People Unit's update of it, and the People Unit its count in a zone record
(R71, R107): each update raises the version count by two. -/
theorem test_guestsUpdateOnTheirOwn :
    let s := { mine with evac.state := .mustering, people.roster := [(3, { miner7 with state := .lost })] }
    let t := s.commitMiner 3 (some miner7) .none
    let u := t.musterReport 3 true false
    t.work.guests = [(.people, zoneBase + zoneSize)] ∧ t.flush.version (rosterBase + 3 * rosterSize) = 2 ∧
    (u.miner? 3).map (·.muster) = some .required ∧ u.flush.version (rosterBase + 3 * rosterSize) = 4 := by decide

/-! ### Witnesses: widened clauses -/

def outcomeOk (o : Host.Outcome State Fault Refusal) (p : State → Bool) : Bool := match o with
  | .next t => p t
  | _ => false

/-- A powered zone, its relay command CLOSED, with two healthy CH4 channels and a vote of 1: one of them may be taken. -/
def spare : State :=
  let s := { closedZone with air.channels := [(0, ch4), (1, { ch4 with slot := 1 })] }
  { s with zone.zones := [(1, { closedZone.zoneRec 1 with ch4 := s.aggregate 1 .ch4 })] }
theorem witness_TestsBegin_powered :
    let s := post 0x21 [0, 100, 0, 0xF4, 1, 10, 0] spare
    Posted s 0 (.bumpTest 0 0 100 500 10) ∧ s.running = true ∧ s.noTests ∧ s.channel? 0 = some ch4 ∧ s.linked ch4 = true ∧
    s.targetBusy .channel 0 = false ∧ s.coverSpare [0] ∧ (s.zoneRec 1).powered = true ∧ (s.zoneRec 1).closed = true :=
  ⟨posted_of (by decide), by decide, noTests_of (by decide), by decide, by decide, by decide, spare_of (by decide), by decide, by decide⟩

theorem witness_PinsFormTheInputs_in1 :
    let s := { mine with supply.in1 := { mine.supply.in1 with enabled := true } }
    (s.input 1).raw ≠ true ∧ Awake s ∧ (s.input 1).status = false ∧ s.running = true ∧ s.evac.state = .quiet ∧
    { s with supply.in1 := { s.supply.in1 with raw := true, status := true } }.supply.in1.raw ≠ false :=
  ⟨by decide, awake_of (by decide), by decide, by decide, by decide, by decide⟩
theorem witness_PinsFormTheInputs_in4 :
    let s := { mine with supply.in4 := { mine.supply.in4 with enabled := true }, supply.in4Zone := some 1 }
    let u := { trippedZone with
      supply.in4 := { mine.supply.in4 with enabled := true, raw := true, status := true }, supply.in4Zone := some 5 }
    (s.input 4).raw ≠ true ∧ Awake s ∧ (s.input 4).status ≠ true ∧ (s.zoneRec 1).inUse = true ∧ s.running = true ∧
    (s.zoneRec 1).trip ≠ .tripped ∧ (u.input 4).raw ≠ false ∧ Awake u ∧ (u.input 4).status ≠ false ∧ (u.zoneRec 5).inUse = true ∧
    (u.zoneRec 5).trip = .tripped ∧ live.supply.in4Zone = none :=
  ⟨by decide, awake_of (by decide), by decide, by decide, by decide, by decide, by decide, awake_of (by decide), by decide, by decide,
    by decide, by decide⟩

/-- SET HEAD of head 2 with its kind and serial, and with another serial. -/
theorem witness_HeadOrdersWriteTheRecord_again :
    let x : HeadArgs := { address := 2, kind := 1, position := 63, count := 0, window := 2, serial := 102 }
    let s := post 0x02 [2, 1, 63, 0, 2, 102, 0, 0, 0] mine
    let y := { x with serial := 103 }
    let u := post 0x02 [2, 1, 63, 0, 2, 103, 0, 0, 0] mine
    Posted s 0 (.setHead 0 x) ∧ headBad x = none ∧ (s.head 2).configured = true ∧ (s.head 2).kind = .reader ∧
    (s.head 2).serial = some 102 ∧ s.headAtPosition 2 63 = none ∧ s.countKind 2 .reader < 24 ∧
    Posted u 0 (.setHead 0 y) ∧ headBad y = none ∧ (u.head 2).serial ≠ some 103 ∧ u.testOn 2 = false ∧ u.headAtPosition 2 63 = none :=
  ⟨posted_of (by decide), by decide, by decide, by decide, by decide, by decide, by decide, posted_of (by decide), by decide, by decide,
    by decide, by decide⟩
theorem witness_HeadOrdersWriteTheRecord_rollCall :
    let x := { polling .identify 1 .empty with purpose := .rollCall }
    let s := post 0x03 [1] (sent x)
    Posted s 0 (.retireHead 0 1) ∧ (s.head 1).configured = true ∧ s.testOn 1 = false ∧ s.loop.exchange = some x ∧
    x.purpose ≠ .marker ∧ x.purpose ≠ .assignFrame ∧ x.frame.address = 1 :=
  ⟨posted_of (by decide), by decide, by decide, by decide, by decide, by decide, by decide⟩

/-- SET CHANNEL of a NORMAL channel with its own kind, head, slot, Z, S and G, and a window of 2 where it holds three values. -/
theorem witness_SetChannelWritesTheChannel_keeps :
    let x : ChannelArgs := { channel1 1 with index := 0, slot := 0, zero := 410, span := 3686, window := 2 }
    let s := post 0x04 [0, 1, 0, 1, 0, 1, 0x9A, 1, 0x66, 14, 250, 0, 100, 0, 125, 0, 150, 0, 60, 0, 2]
      { mine with air.channels := [(0, { ch4 with n := 3 })], air.windows := [(0, [96, 98, 100])] }
    Posted s 0 (.setChannel 0 x) ∧ channelBad x = none ∧ s.channel? 0 = some { ch4 with n := 3 } ∧
    s.heldInFlight 0 (1 :: ((s.channel? 0).map (·.head)).toList) = false ∧
    lookupAt s.tests.bumps 0 = none ∧ lookupAt s.tests.cals 0 = none ∧ ch4.state = .normal ∧ ch4.kind = .ch4 ∧ ch4.head = 1 ∧
    ch4.slot = x.slot ∧ ch4.zero = x.zero ∧ ch4.span = x.span ∧ ch4.gas = x.gas ∧ s.channelWindow 0 = [96, 98, 100] :=
  ⟨posted_of (by decide), by decide, by decide, by decide, by decide, by decide, by decide, by decide, by decide, by decide, by decide,
    by decide, by decide, by decide⟩
theorem witness_SetChannelWritesTheChannel_restarts :
    mine.channel? 1 = none ∧ lookupAt mine.tests.bumps 1 = none ∧ lookupAt mine.tests.cals 1 = none := by decide

/-- RESERVE rates, with pattern 2 chosen for the zone of sounder 5. -/
def reserve : State := { mine with loop.rates := .reserve, alarm.choices := [(1, ⟨some 2, false⟩)] }
theorem witness_PatternAndInputOrders_marks :
    let x : PatternArgs := { index := 2, onTime := 9, offTime := 255, duty := 3, repeats := 15 }
    let s := post 0x09 [2, 9, 255, 3, 15] reserve
    Posted s 0 (.setPattern 0 x) ∧ patternBad x = none ∧ risingFrom 0 s.loop.heads = true ∧ s.loop.marks = [] ∧
    outcomeOk (exec (.setPattern 0 x) s) (fun t => decide (t.loop.marks = [5] ∧ s.givenBytes 5 ≠ t.givenBytes 5)) = true :=
  ⟨posted_of (by decide), by decide, by decide, by decide, by decide⟩
theorem witness_AlarmOutputsFollow_marks :
    let s := { raised with
      loop.rates := .reserve, zone.zones := [(1, { raised.zoneRec 1 with sounders := [5] })], supply.policy.patTrip := 3 }
    let u := { mine with loop.rates := .reserve, alarm.choices := [(1, ⟨some 2, true⟩)] }
    s.active = true ∧ (s.zoneRec 1).inUse = true ∧ risingFrom 0 s.loop.heads = true ∧ s.loop.marks = [] ∧
    (s.evalZone 1).loop.marks = [5] ∧ s.givenBytes 5 ≠ (s.evalZone 1).givenBytes 5 ∧
    u.active = true ∧ u.loop.marks = [] ∧ u.judgeAllChoices.loop.marks = [5] := by decide

theorem witness_FailedTriesAndMissedPolls_leaves :
    let s := sent { polling .poll 1 .empty with retry := true }
    (s.head 1).link = .online ∧ (s.head 1).kind = .gas ∧ s.noTests ∧ s.channel? 0 = some ch4 ∧ ch4.head = 1 ∧ ch4.state = .normal :=
  ⟨by decide, by decide, noTests_of (by decide), by decide, by decide, by decide⟩
/-- Abandoned exchanges: of a roll call, and of an address assignment in its third round. -/
theorem witness_FailedTriesAndMissedPolls_dropped :
    let x := { polling .identify 1 .empty with purpose := .rollCall, abandoned := true }
    let y := { polling .identify 1 .empty with purpose := .assignCheck, abandoned := true }
    let a : Assignment := { serial := 1, target := 1, begun := true, rounds := 3 }
    let u := { sent y with loop.assignment := some a }
    Awake (sent x) ∧ (sent x).loop.exchange = some x ∧ x.frame.kind = .identify ∧ x.abandoned = true ∧ x.purpose ≠ .assignCheck ∧
    (sent x).due x.sentAt 4 = true ∧ x.begun = false ∧ Awake u ∧ u.loop.exchange = some y ∧ y.frame.kind = .identify ∧
    u.loop.assignment = some a ∧ a.begun = true ∧ 3 ≤ a.rounds ∧ u.loop.round = some emptyRound ∧ emptyRound.markerOwed = false :=
  ⟨awake_of (by decide), by decide, by decide, by decide, by decide, by decide, by decide, awake_of (by decide), by decide, by decide,
    by decide, by decide, by decide, by decide, by decide⟩

theorem witness_IdentifyReplyMatchesTheHead_rollCall :
    let x := { polling .identify 1 .empty with purpose := .rollCall, side := .b }
    let s := { sent x with loop.rollCall := some { automatic := true, begun := true, address := 1, tries := [] }
                           loop.round := some { emptyRound with rollLeft := 1 } }
    Awake s ∧ s.loop.exchange = some x ∧ x.frame.kind = .identify ∧ x.abandoned = false ∧ okHead.address = x.frame.address ∧
    (s.head 1).configured = true ∧ s.loop.round = some { emptyRound with rollLeft := 1 } :=
  ⟨awake_of (by decide), by decide, by decide, by decide, by decide, by decide, by decide⟩
/-- An ONLINE GAS head that answers a POLL as another kind, and so becomes MISMATCH with a NORMAL channel. -/
theorem witness_IdentifyReplyMatchesTheHead_leaves :
    let x := polling .poll 1 (.gas 2 0)
    let r : SounderReply := { head := okHead, pulled := false }
    pollOk (sent x) x = true ∧ r.head.address = 1 ∧ r.head.toggle = x.frame.toggle ∧ ((sent x).head 1).kind = .gas ∧
    (sent x).tests.bumps = [] ∧ (sent x).channel? 0 = some ch4 ∧
    outcomeOk (exec (.sounderReply r) (sent x)) (fun t => decide ((t.head 1).link = .mismatch)) = true := by decide

/-- A FAULT channel meets a clean reading, and one that is not: every cause. -/
theorem witness_GasReplyGivesReadings_fault :
    let c (x : FaultCause) := { ch4 with state := .fault, cause := some x }
    let good : RawReading := ⟨4094, false, false⟩
    let bad : RawReading := ⟨4095, false, false⟩
    (c .link).zero + 64 ≤ (c .link).span ∧ (c .slowRecovery).state = .fault ∧ (c .driftLow).cause = some .driftLow ∧
    good.sensor = false ∧ good.warmup = false ∧ 1 ≤ good.raw ∧ good.raw ≤ 4094 ∧ ¬bad.raw ≤ 4094 ∧
    ch4.kind.rising = true ∧ ch4.convert 410 < ch4.l1 ∧ ¬ch4.convert 4094 < ch4.l1 := by decide

/-- RETIRE HEAD abandons a roll call's IDENTIFY (R43): its reply brings no serial, and the address is examined again. -/
theorem test_retire_abandons_roll_call :
    let x := { polling .identify 1 .empty with purpose := .rollCall }
    let rc : RollCall := { automatic := true, begun := true, address := 1, tries := [] }
    let s := { sent x with loop.rollCall := some rc, loop.round := some { emptyRound with rollLeft := 1 } }
    let t := s.abandon 1
    (t.loop.exchange.map (·.abandoned)) = some true ∧
    outcomeOk (exec (.identifyReply { head := okHead, kind := .gas, serial := 999 }) t)
      (fun u => decide ((u.head 1).identified = some 101 ∧ u.loop.rollCall = some rc ∧ u.nextWork = .identify 1 .rollCall)) = true := by
  decide

/-- A write of the high byte alone of the held half keeps the low byte of the taken count (R1, R22; log entry 14). -/
theorem test_taken_count_byte :
    outcomeOk (exec (.takenCountWrite false 0x1234#16 false true) { live with port.written := 300, port.taken := 0xAB#32 })
      (fun t => decide (t.port.held = some 0x12AB#16 ∧ t.port.taken = 0xAB#32)) = true := by decide

end Sys2Proof.Tests
end

section
/-! The arithmetic of a reading: the level evaluation (R63, R64) and the conversion of a raw count (R59). -/

namespace Sys2Proof.Machine

/-! ### The fall of a level -/

theorem fallFrom_le (leaves : Nat → Bool) : ∀ cur, fallFrom leaves cur ≤ cur
  | 0 => Nat.le_refl 0
  | n + 1 => by
    unfold fallFrom
    split
    · exact Nat.le_succ_of_le (fallFrom_le leaves n)
    · exact Nat.le_refl _

/-- A level is passed only where it is left. -/
theorem leaves_of_fallFrom_lt {leaves : Nat → Bool} {n : Nat} :
    ∀ {cur}, fallFrom leaves cur < n → n ≤ cur → leaves n = true
  | 0, hlt, hle => by omega
  | k + 1, hlt, hle => by
    unfold fallFrom at hlt
    split at hlt
    next hleft =>
      obtain rfl | hn : n = k + 1 ∨ n ≤ k := by omega
      · exact hleft
      · exact leaves_of_fallFrom_lt hlt hn
    next => omega

/-- A fall ends at level 0 or at a level that is not left. -/
theorem not_leaves_fallFrom {leaves : Nat → Bool} :
    ∀ {cur}, 1 ≤ fallFrom leaves cur → ¬leaves (fallFrom leaves cur) = true
  | 0, hpos => absurd hpos (Nat.not_succ_le_zero 0)
  | k + 1, hpos => by
    unfold fallFrom at hpos ⊢
    split
    next hleft => exact not_leaves_fallFrom (by rwa [if_pos hleft] at hpos)
    next hstay => exact hstay

/-! ### Rounding -/

/-- The quotient with half the divisor added is the nearest integer, with halves rounded up. -/
theorem rounded_quotient_bounds (a : Nat) {d : Nat} (hd : 0 < d) :
    2 * ((a + d / 2) / d) * d ≤ 2 * a + d ∧ 2 * a < 2 * ((a + d / 2) / d) * d + d := by
  have hdiv : d * ((a + d / 2) / d) + (a + d / 2) % d = a + d / 2 := Nat.div_add_mod _ _
  have hmod : (a + d / 2) % d < d := Nat.mod_lt _ hd
  have hprod : 2 * ((a + d / 2) / d) * d = 2 * (d * ((a + d / 2) / d)) := by
    rw [Nat.mul_assoc, Nat.mul_comm d]
  omega

namespace Channel

variable {c : Channel} {cur m v n : Nat}

/-! ### Thresholds reached and left -/

theorem threshold_eq (c : Channel) (n : Nat) :
    c.threshold n = if n = 1 then c.l1 else if n = 2 then c.l2 else c.l3 :=
  match n with
  | 0 | 1 | 2 => rfl
  | k + 3 => by
    rw [if_neg (by omega), if_neg (by omega)]
    rfl

theorem compared_of_rising (hk : c.kind.rising = true) :
    c.compared m v n = if n = 3 then max m v else m := by
  rw [compared, if_pos hk]

theorem compared_of_falling (hk : c.kind.rising = false) :
    c.compared m v n = if n = 3 then min m v else m := by
  rw [compared, hk, if_neg Bool.false_ne_true]

theorem reaches_iff_of_rising (hk : c.kind.rising = true) :
    c.reaches m v n = true ↔ c.threshold n ≤ c.compared m v n := by
  rw [reaches, if_pos hk, decide_eq_true_iff]

theorem reaches_iff_of_falling (hk : c.kind.rising = false) :
    c.reaches m v n = true ↔ c.compared m v n ≤ c.threshold n := by
  rw [reaches, hk, if_neg Bool.false_ne_true, decide_eq_true_iff]

theorem leaves_iff_of_rising (hk : c.kind.rising = true) :
    c.leaves m v n = true ↔ c.compared m v n + c.hyst < c.threshold n := by
  rw [leaves, if_pos hk, decide_eq_true_iff]

theorem leaves_iff_of_falling (hk : c.kind.rising = false) :
    c.leaves m v n = true ↔ c.threshold n + c.hyst < c.compared m v n := by
  rw [leaves, hk, if_neg Bool.false_ne_true, decide_eq_true_iff]

/-- A fall stops at or above every level reached (R63). -/
theorem not_leaves_of_reaches (hr : c.reaches m v n = true) : ¬c.leaves m v n = true := by
  cases hk : c.kind.rising
  · rw [reaches_iff_of_falling hk] at hr
    rw [leaves_iff_of_falling hk]
    omega
  · rw [reaches_iff_of_rising hk] at hr
    rw [leaves_iff_of_rising hk]
    omega

/-! ### The highest level reached -/

theorem upTo_of_reaches_three (h3 : c.reaches m v 3 = true) : c.upTo m v = 3 := if_pos h3

theorem upTo_of_reaches_two (h3 : ¬c.reaches m v 3 = true) (h2 : c.reaches m v 2 = true) : c.upTo m v = 2 := by
  rw [upTo, if_neg h3, if_pos h2]

theorem upTo_of_reaches_one (h3 : ¬c.reaches m v 3 = true) (h2 : ¬c.reaches m v 2 = true)
    (h1 : c.reaches m v 1 = true) : c.upTo m v = 1 := by
  rw [upTo, if_neg h3, if_neg h2, if_pos h1]

theorem upTo_of_reaches_none (h3 : ¬c.reaches m v 3 = true) (h2 : ¬c.reaches m v 2 = true)
    (h1 : ¬c.reaches m v 1 = true) : c.upTo m v = 0 := by
  rw [upTo, if_neg h3, if_neg h2, if_neg h1]

theorem upTo_le_three (c : Channel) (m v : Nat) : c.upTo m v ≤ 3 := by
  unfold upTo
  repeat' split
  all_goals decide

theorem reaches_upTo (hpos : 1 ≤ c.upTo m v) : c.reaches m v (c.upTo m v) = true := by
  by_cases h3 : c.reaches m v 3 = true
  · rwa [upTo_of_reaches_three h3]
  by_cases h2 : c.reaches m v 2 = true
  · rwa [upTo_of_reaches_two h3 h2]
  by_cases h1 : c.reaches m v 1 = true
  · rwa [upTo_of_reaches_one h3 h2 h1]
  · rw [upTo_of_reaches_none h3 h2 h1] at hpos
    exact absurd hpos (Nat.not_succ_le_zero 0)

theorem le_upTo_of_reaches (hpos : 1 ≤ n) (hle : n ≤ 3) (hr : c.reaches m v n = true) : n ≤ c.upTo m v := by
  by_cases h3 : c.reaches m v 3 = true
  · rwa [upTo_of_reaches_three h3]
  have hn3 : n ≠ 3 := fun h => h3 (h ▸ hr)
  by_cases h2 : c.reaches m v 2 = true
  · rw [upTo_of_reaches_two h3 h2]
    omega
  have hn2 : n ≠ 2 := fun h => h2 (h ▸ hr)
  have hn1 : n = 1 := by omega
  rw [upTo_of_reaches_one h3 h2 (hn1 ▸ hr)]
  exact Nat.le_of_eq hn1

/-! ### The evaluation -/

theorem evaluate_of_lt_upTo (h : cur < c.upTo m v) : c.evaluate cur m v = c.upTo m v := if_pos h

theorem evaluate_of_upTo_le (h : c.upTo m v ≤ cur) : c.evaluate cur m v = fallFrom (c.leaves m v) cur :=
  if_neg (Nat.not_lt.2 h)

/-- The rise: at once to the highest level reached (step 1 of R63 and R64). -/
theorem evaluate_rises (h : ∃ n, cur < n ∧ n ≤ 3 ∧ c.reaches m v n = true) :
    c.evaluate cur m v ≤ 3 ∧ cur < c.evaluate cur m v ∧ c.reaches m v (c.evaluate cur m v) = true ∧
      ∀ n, c.evaluate cur m v < n → n ≤ 3 → ¬c.reaches m v n = true := by
  obtain ⟨k, hcur, hk, hr⟩ := h
  have hup : cur < c.upTo m v := Nat.lt_of_lt_of_le hcur (le_upTo_of_reaches (by omega) hk hr)
  rw [evaluate_of_lt_upTo hup]
  refine ⟨upTo_le_three c m v, hup, reaches_upTo (by omega), fun n hn hle hr => ?_⟩
  exact absurd (le_upTo_of_reaches (by omega) hle hr) (Nat.not_le.2 hn)

/-- The fall: one level at a time, to the first level that is not left (step 2 of R63 and R64). -/
theorem evaluate_falls (h : ∀ n, cur < n → n ≤ 3 → ¬c.reaches m v n = true) :
    c.evaluate cur m v ≤ cur ∧ (∀ n, c.evaluate cur m v < n → n ≤ cur → c.leaves m v n = true) ∧
      (1 ≤ c.evaluate cur m v → ¬c.leaves m v (c.evaluate cur m v) = true) ∧
      ∀ n, 1 ≤ n → n ≤ 3 → c.reaches m v n = true → n ≤ c.evaluate cur m v := by
  have hup : c.upTo m v ≤ cur := Nat.le_of_not_lt fun hlt =>
    h _ hlt (upTo_le_three c m v) (reaches_upTo (Nat.one_le_of_lt hlt))
  rw [evaluate_of_upTo_le hup]
  refine ⟨fallFrom_le _ _, fun n => leaves_of_fallFrom_lt, not_leaves_fallFrom, fun n hpos hle hr => ?_⟩
  have hcur : n ≤ cur := Nat.le_trans (le_upTo_of_reaches hpos hle hr) hup
  exact Nat.le_of_not_lt fun hlt => not_leaves_of_reaches hr (leaves_of_fallFrom_lt hlt hcur)

/-! ### The conversion -/

theorem convert_eq_ite (c : Channel) (r : Nat) :
    c.convert r = if c.unbounded r ≤ c.kind.fullScale then c.unbounded r else c.kind.fullScale :=
  Nat.min_def

theorem convert_le_fullScale (c : Channel) (r : Nat) : c.convert r ≤ c.kind.fullScale := Nat.min_le_right _ _

theorem overScale_iff (c : Channel) (r : Nat) : c.overScale r = true ↔ c.kind.fullScale < c.unbounded r :=
  decide_eq_true_iff

end Channel

/-! ### The obligations -/

/-- Settles O49: the rise and the fall, read for a rising kind (R63) and for a falling kind (R64). -/
theorem levelsFollowTheThresholds : Obligations.LevelsFollowTheThresholds := by
  intro c cur m v _ l next
  have hl : l = c.threshold := funext fun n => (c.threshold_eq n).symm
  clear_value l
  subst hl
  refine ⟨?rising, ?falling⟩
  case rising =>
    intro hkind x
    have hk : c.kind.rising = true := by obtain h | h := hkind <;> rw [h] <;> rfl
    have hx : x = c.compared m v := funext fun n => (Channel.compared_of_rising hk).symm
    clear_value x
    subst hx
    exact ⟨by simpa only [Channel.reaches_iff_of_rising hk, Nat.not_le] using c.evaluate_rises,
      by simpa only [Channel.reaches_iff_of_rising hk, Channel.leaves_iff_of_rising hk, Nat.not_le, Nat.not_lt]
        using c.evaluate_falls⟩
  case falling =>
    intro hkind x
    have hk : c.kind.rising = false := by obtain h | h := hkind <;> rw [h] <;> rfl
    have hx : x = c.compared m v := funext fun n => (Channel.compared_of_falling hk).symm
    clear_value x
    subst hx
    exact ⟨by simpa only [Channel.reaches_iff_of_falling hk, Nat.not_le] using c.evaluate_rises,
      by simpa only [Channel.reaches_iff_of_falling hk, Channel.leaves_iff_of_falling hk, Nat.not_le, Nat.not_lt]
        using c.evaluate_falls⟩

/-- Settles O50: the conversion of R59, with the rounding stated as bounds on the exact quotient. -/
theorem readingsAreConverted : Obligations.ReadingsAreConverted := by
  intro c r hspan d u
  have hd : 0 < d := by omega
  have hu : c.unbounded r = u := rfl
  refine ⟨hu, fun hr => ?_, hu ▸ c.convert_eq_ite r, c.convert_le_fullScale r, hu ▸ c.overScale_iff r⟩
  have hquot : u = ((r - c.zero) * c.gas + d / 2) / d := if_pos hr
  rw [hquot]
  exact rounded_quotient_bounds _ hd

end Sys2Proof.Machine
end
